-- ==== Sys2Proof/Word.lean ====
section
/-! DEFINITION. The word types (R10, R13): 64-bit values, bytes, and instruction words (a 16-bit word is carried
zero-extended in 32 bits, R440). -/

namespace Sys2Proof

/-- A 64-bit value: a GPR, an FPR, the pc, a CSR, a virtual or physical address (R10, R12, R13). -/
abbrev Word := BitVec 64

/-- One byte of memory (R100). -/
abbrev Byte := BitVec 8

/-- An instruction word: 32 bits, or 16 bits zero-extended (R187, R440). -/
abbrev Insn := BitVec 32

end Sys2Proof
end

