-- ==== Sys2Proof/Config.lean ====
section
/-! DEFINITION. What an implementation fixes, the parameters of R11, the instruction and CSR tables among them, and the values
the spec leaves free (R14 `draw`, R124, R636). Parameters are data held in the state as `cfg`; their defaults stand in
Machine/Defaults.lean. Free values are opaque constants, so nothing can be proved of them. -/

namespace Sys2Proof

/-- The current privilege level: user, supervisor or machine (R42, R660). -/
inductive Priv where
  /-- User mode, U = 0. -/
  | user
  /-- Supervisor mode, S = 1. -/
  | supervisor
  /-- Machine mode, M = 3. -/
  | machine
  deriving DecidableEq, Repr

/-- The encoding of a privilege level: U = 0, S = 1, M = 3 (R42). -/
def Priv.code : Priv → Nat
  | .user => 0
  | .supervisor => 1
  | .machine => 3

/-- The privilege level of an encoding; 2 is not a mode (R42, R660). -/
def Priv.ofCode : Nat → Option Priv
  | 0 => some .user
  | 1 => some .supervisor
  | 3 => some .machine
  | _ => none

/-- The Machine's byte order, `BYTE_ORDER` (R11, R101). -/
inductive ByteOrder where
  | little
  | big
  deriving DecidableEq, Repr

/-- Whether FP loads, stores and moves execute or raise IllegalInstruction, `FP_MEMORY_OPS` (R11, R490). -/
inductive FpMemoryOps where
  | implemented
  | stub
  deriving DecidableEq, Repr

/-- How interrupts are enabled in U-mode, `U_IRQ_ENABLE` (R11, R636). -/
inductive UIrqEnable where
  /-- The check reads `mstatus` bit 0. -/
  | uie
  /-- The check treats U-mode as enabled. -/
  | always
  /-- Both outcomes admitted: the free choice `Config.uIrqChoice` decides. -/
  | both
  deriving DecidableEq, Repr

/-- What answers a physical range: memory, or a device whose answers come from the environment (R109, R130, R667). -/
inductive BusKind where
  | ram
  | device
  deriving DecidableEq, Repr

/-- One range of `BUS_MAP`: the addresses `base` to `base + size - 1` (R11, R130). -/
structure BusRange where
  base : Nat
  size : Nat
  kind : BusKind
  deriving DecidableEq, Repr

/-- The range answers an access of `n` bytes at `pa`: all of the access lies inside it (R131). -/
def BusRange.covers (r : BusRange) (pa n : Nat) : Bool :=
  r.base ≤ pa && pa + n ≤ r.base + r.size

/-! ### The rows of `ISA_TABLE` (R180, R181) -/

/-- The stable opcode identifier of a definition: one for each row of the opcode table (R181). -/
inductive Op where
  | lui | auipc | addi | slti | sltiu | xori | ori | andi
  | slli | srli | srai | add | sub | sll | slt | sltu
  | xor | srl | sra | or | and | addiw | slliw | srliw
  | sraiw | addw | subw | sllw | srlw | sraw | jal | jalr
  | beq | bne | blt | bge | bltu | bgeu | lb | lh
  | lw | ld | lbu | lhu | lwu | sb | sh | sw
  | sd | mul | mulh | mulhsu | mulhu | div | divu | rem
  | remu | mulw | divw | divuw | remw | remuw | lrW | scW
  | amoswapW | amoaddW | amoxorW | amoandW | amoorW | amominW | amomaxW | amominuW
  | amomaxuW | lrD | scD | amoswapD | amoaddD | amoxorD | amoandD | amoorD
  | amominD | amomaxD | amominuD | amomaxuD | csrrw | csrrs | csrrc | csrrwi
  | csrrsi | csrrci | fence | fenceI | ecall | ebreak | sret | mret
  | wfi | sfenceVma | cAddi4spn | cFld | cLw | cLd | cFsd | cSw
  | cSd | cAddi | cAddiw | cLi | cAddi16sp | cLui | cSrli | cSrai
  | cAndi | cSub | cXor | cOr | cAnd | cSubw | cAddw | cJ
  | cBeqz | cBnez | cSlli | cFldsp | cLwsp | cLdsp | cJr | cMv
  | cEbreak | cJalr | cAdd | cFsdsp | cSwsp | cSdsp | flw | fld
  | fsw | fsd | fmvXW | fmvWX | fmvXD | fmvDX | faddS | fsubS
  | fmulS | fdivS | fsqrtS | fsgnjS | fsgnjnS | fsgnjxS | fminS | fmaxS
  | feqS | fltS | fleS | fclassS | fcvtWS | fcvtWuS | fcvtLS | fcvtLuS
  | fcvtSW | fcvtSWu | fcvtSL | fcvtSLu | faddD | fsubD | fmulD | fdivD
  | fsqrtD | fsgnjD | fsgnjnD | fsgnjxD | fminD | fmaxD | feqD | fltD
  | fleD | fclassD | fcvtWD | fcvtWuD | fcvtLD | fcvtLuD | fcvtDW | fcvtDWu
  | fcvtDL | fcvtDLu | fcvtSD | fcvtDS | fmaddS | fmsubS | fnmsubS | fnmaddS
  | fmaddD | fmsubD | fnmsubD | fnmaddD | hfenceVvma | hfenceGvma | hlvB | hlvBu
  | hlvH | hlvHu | hlvxHu | hlvW | hlvWu | hlvxWu | hlvD | hsvB
  | hsvH | hsvW | hsvD | cboInval | cboClean | cboFlush | cboZero | vectorOp
  | vectorLoadW8 | vectorLoadW16 | vectorLoadW32 | vectorLoadW64 | vectorStoreW8 | vectorStoreW16 | vectorStoreW32 | vectorStoreW64
  deriving DecidableEq, Repr

/-- The label of an operand (R181, R190, R192). -/
inductive OperandLabel where
  | rd | rs1 | rs2 | rs3 | imm | shamt | csr | uimm | fm | pred | succ | aq | rl | rm | rdP | rs1P | rs2P
  deriving DecidableEq, Repr

/-- A bit segment `(hi, lo, shift)` of an operand (R181). -/
structure Segment where
  hi : Nat
  lo : Nat
  shift : Nat
  deriving DecidableEq, Repr

/-- An operand: a label, its bit segments in order, and the values that invalidate the match (R181). -/
structure Operand where
  label : OperandLabel
  segments : List Segment
  exclusions : List Nat
  deriving DecidableEq, Repr

/-- An instruction definition (R181): identifier, length in bytes, fixed-bit mask and pattern, privilege restriction
(0 = any), operands. -/
structure Definition where
  op : Op
  length : Nat
  mask : Insn
  bits : Insn
  restriction : Nat
  operands : List Operand
  deriving DecidableEq, Repr

/-! ### The rows of `CSR_TABLE` (R50, R52) -/

/-- The computed registers: those of the default table, the only getters and setters the spec gives (R52, log entry 12). -/
inductive CsrComputed where
  | frm | cycle | time | instret | mip
  deriving DecidableEq, Repr

/-- What an address is: a storage register, a view of a base address, or a computed register (R50). -/
inductive CsrKind where
  | storage
  | view (base : BitVec 12)
  | computed (c : CsrComputed)
  deriving DecidableEq, Repr

/-- The storage registers of the CSR file: those of the default table by name, any other one by its address (R50, R52). -/
inductive CsrReg where
  | fcsr | stvec | scounteren | sscratch | sepc | scause | stval | satp
  | mstatus | misa | medeleg | mideleg | mie | mtvec | mcounteren | mscratch
  | mepc | mcause | mtval | mvendorid | marchid | mimpid | mhartid | mconfigptr
  | other (a : BitVec 12)
  deriving DecidableEq, Repr

/-- The reset value of a storage register: a value, or the hart's id (R52). -/
inductive CsrReset where
  | value (v : Word)
  | hartid
  deriving DecidableEq, Repr

/-- One row of `CSR_TABLE` (R50, R52): address, writable-bit mask, kind, and the reset value of a storage register. No row has a
hook (R66, log entry 15). -/
structure CsrRow where
  addr : BitVec 12
  mask : Word
  kind : CsrKind
  reset : CsrReset
  deriving DecidableEq, Repr

/-! ### The parameters -/

/-- The parameters of R11, all ten; `hartid` is each hart's own field (R79). -/
structure Config where
  /-- `NUM_HARTS`, the configured core count, at least 1. -/
  numHarts : Nat
  /-- `BYTE_ORDER`. -/
  byteOrder : ByteOrder
  /-- `RESET_PC`, the entry point after reset. -/
  resetPc : Word
  /-- `DTB_ADDR`, the device-tree address put in x11. -/
  dtbAddr : Word
  /-- `BUS_MAP`, the physical ranges something answers. -/
  busMap : List BusRange
  /-- `CSR_TABLE`, the defined CSRs (log entry 12). -/
  csrTable : List CsrRow
  /-- `ISA_TABLE`, the instruction definitions in the registry (log entry 12). -/
  isaTable : List Definition
  /-- `FP_MEMORY_OPS`. -/
  fpMemoryOps : FpMemoryOps
  /-- `TLB_MAY_DROP`. -/
  tlbMayDrop : Bool
  /-- `U_IRQ_ENABLE`. -/
  uIrqEnable : UIrqEnable
  deriving DecidableEq, Repr

/-- The parameters inside their stated range: at least one hart (R11), an even entry point (R41, R706), ranges inside the 64-bit
space (R12). What others mean is open, and loading a machine does not ask for this (log entry 13). -/
def Config.wf (c : Config) : Bool :=
  decide (1 ≤ c.numHarts) && c.resetPc &&& 1 == 0 && c.busMap.all fun r => r.base + r.size ≤ 2 ^ 64

/-- The `n`-th draw: a value the model does not fix (R14). It answers the trap value of IllegalInstruction (R202, R633),
a read of `cycle` or `instret` (R665) and a read of a device window (R667). Safe: no proof can see a value (log
entry 5). -/
opaque Config.draw : Nat → Word

/-- Whether the TLB entry at position `i` is dropped at the step boundary numbered `n`: a choice the model does not fix
(R124). Safe (log entry 6). -/
opaque Config.dropsTlb : Nat → Nat → Bool

/-- Whether U-mode has interrupts enabled when both outcomes are admitted (R636): a choice the model does not fix. Safe
(log entry 7). -/
opaque Config.uIrqChoice : Bool

end Sys2Proof
end

