-- ==== Sys2Proof/Machine/Flags.lean ====
section
/-! DEFINITION. The fields of the registers that hold fields: `mstatus` and what trap entry and trap return do to it, the
trap vectors, `satp`, page-table entries, and CSR addresses. -/

namespace Sys2Proof.Machine

/-! ### Bit fields (R13) -/

/-- Bit `i` of a register. -/
def bit (v : Word) (i : Nat) : Bool := v.getLsbD i

/-- The register with bit `i` set to `b`. -/
def setBit (v : Word) (i : Nat) (b : Bool) : Word :=
  if b then v ||| ((1 : Word) <<< i) else v &&& ~~~((1 : Word) <<< i)

/-- The field of `n` bits whose lowest is bit `lo`, `v[lo+n-1 : lo]`. -/
def field (v : Word) (lo n : Nat) : Word := (v >>> lo) &&& BitVec.ofNat 64 (2 ^ n - 1)

/-- The register with that field replaced by the low `n` bits of `x`. -/
def setField (v : Word) (lo n : Nat) (x : Word) : Word :=
  (v &&& ~~~(BitVec.ofNat 64 (2 ^ n - 1) <<< lo)) ||| ((x &&& BitVec.ofNat 64 (2 ^ n - 1)) <<< lo)

/-! ### `mstatus` (R53) -/

/-- UIE, bit 0. -/
def statusUIE (v : Word) : Bool := bit v 0
/-- SIE, bit 1. -/
def statusSIE (v : Word) : Bool := bit v 1
/-- MIE, bit 3. -/
def statusMIE (v : Word) : Bool := bit v 3
/-- SPIE, bit 5. -/
def statusSPIE (v : Word) : Bool := bit v 5
/-- MPIE, bit 7. -/
def statusMPIE (v : Word) : Bool := bit v 7
/-- SPP, bit 8: 0 = U, 1 = S. -/
def statusSPP (v : Word) : Bool := bit v 8
/-- MPP, bits 12:11. -/
def statusMPP (v : Word) : Nat := (field v 11 2).toNat
/-- SUM, bit 18. -/
def statusSUM (v : Word) : Bool := bit v 18

/-- Trap entry to M: MPIE takes MIE, MIE is cleared, MPP takes the old privilege (R643). -/
def statusTrapM (v : Word) (priv : Priv) : Word :=
  setField (setBit (setBit v 7 (statusMIE v)) 3 false) 11 2 (BitVec.ofNat 64 priv.code)

/-- Trap entry to S: SPIE takes SIE, SIE is cleared, SPP takes whether the old privilege is S (R644). -/
def statusTrapS (v : Word) (priv : Priv) : Word :=
  setBit (setBit (setBit v 5 (statusSIE v)) 1 false) 8 (decide (priv = .supervisor))

/-- `mret`: MIE takes MPIE, MPIE becomes 1, MPP becomes 0 (R426, R651). -/
def statusMret (v : Word) : Word := setField (setBit (setBit v 3 (statusMPIE v)) 7 true) 11 2 0

/-- `sret`: SIE takes SPIE, SPIE becomes 1, SPP becomes 0 (R425, R651). -/
def statusSret (v : Word) : Word := setBit (setBit (setBit v 1 (statusSPIE v)) 5 true) 8 false

/-! ### Trap vectors (R56, R646) and causes (R57) -/

/-- BASE: the vector with its low 2 mode bits masked off. -/
def tvecBase (v : Word) : Word := v &&& ~~~3

/-- MODE, bits 1:0. -/
def tvecMode (v : Word) : Word := field v 0 2

/-- A cause register's value: bit 63 is 1 for an interrupt, bits 62:0 hold the code (R57). -/
def causeValue (interrupt : Bool) (code : Nat) : Word := setBit (BitVec.ofNat 64 code) 63 interrupt

/-! ### `satp` (R55) -/

/-- MODE, bits 63:60. -/
def satpMode (v : Word) : Nat := (field v 60 4).toNat
/-- ASID, bits 59:44. -/
def satpAsid (v : Word) : Nat := (field v 44 16).toNat
/-- PPN, bits 43:0: the root page number. -/
def satpPpn (v : Word) : Word := field v 0 44

/-! ### Page-table entries (R114) -/

/-- V, valid. -/
def pteV (p : Word) : Bool := bit p 0
/-- R, readable. -/
def pteR (p : Word) : Bool := bit p 1
/-- W, writable. -/
def pteW (p : Word) : Bool := bit p 2
/-- X, executable. -/
def pteX (p : Word) : Bool := bit p 3
/-- U, user page. -/
def pteU (p : Word) : Bool := bit p 4
/-- G, global. -/
def pteG (p : Word) : Bool := bit p 5
/-- A, accessed. -/
def pteA (p : Word) : Bool := bit p 6
/-- D, dirty. -/
def pteD (p : Word) : Bool := bit p 7
/-- PPN, bits 53:10. -/
def ptePpn (p : Word) : Word := field p 10 44

/-! ### CSR addresses (R51) -/

/-- The address is marked read-only: bits 11:10 are both 1. -/
def csrReadOnly (a : BitVec 12) : Bool := (a >>> 10).toNat == 3

/-- The lowest privilege that may access the address, bits 9:8. -/
def csrPrivilege (a : BitVec 12) : Nat := (a >>> 8).toNat % 4

end Sys2Proof.Machine
end

