-- ==== Sys2Proof/Machine/Operands.lean ====
section
/-! DEFINITION. The values instructions compute from their operands: extension, shifts, comparisons, word forms, products,
quotients and remainders, atomic operations, register numbering and NaN boxes. Nothing here touches the state. -/

namespace Sys2Proof.Machine

/-! ### Extension (R14, R15) -/

/-- `sext_w(v)`: sign extension to 64 bits (R14). -/
def sext {w : Nat} (v : BitVec w) : Word := v.signExtend 64

/-- `zext_w(v)`: zero extension to 64 bits (R14). -/
def zext {w : Nat} (v : BitVec w) : Word := v.setWidth 64

/-- `v[31:0]`. -/
def low32 (v : Word) : BitVec 32 := v.setWidth 32

/-- `sext_N` of the low `8n` bits of a value read by an `n`-byte access (R14). -/
def sextBytes (n : Nat) (v : Word) : Word := sext (v.setWidth (8 * n))

/-- `zext_N` of the low `8n` bits of a value read by an `n`-byte access (R14). -/
def zextBytes (n : Nat) (v : Word) : Word := zext (v.setWidth (8 * n))

/-- The register a primed field names: `8 + k` (R192). -/
def primed (k : BitVec 3) : BitVec 5 := k.setWidth 5 + 8

/-- A 32-bit value in a 64-bit FPR: the upper 32 bits are ones (R499). -/
def nanBox (v : Word) : Word := 0xFFFFFFFF00000000 ||| zext (low32 v)

/-! ### Integer operations (R260 to R290) -/

/-- `1` or `0`. -/
def ofFlag (b : Bool) : Word := if b then 1 else 0

/-- The sum modulo 2^64 (R263, R272). -/
def aluAdd (a b : Word) : Word := a + b

/-- The difference modulo 2^64 (R273). -/
def aluSub (a b : Word) : Word := a - b

/-- Bitwise exclusive or (R266, R277). -/
def aluXor (a b : Word) : Word := a ^^^ b

/-- Bitwise or (R267, R280). -/
def aluOr (a b : Word) : Word := a ||| b

/-- Bitwise and (R268, R281). -/
def aluAnd (a b : Word) : Word := a &&& b

/-- 1 if `s(a) < s(b)`, else 0 (R264, R275). -/
def aluSlt (a b : Word) : Word := ofFlag (decide (a.toInt < b.toInt))

/-- 1 if `u(a) < u(b)`, else 0 (R265, R276). -/
def aluSltu (a b : Word) : Word := ofFlag (decide (a.toNat < b.toNat))

/-- The shift amount `b[5:0]` of a 64-bit shift (R260). -/
def shamt6 (b : Word) : Nat := b.toNat % 64

/-- The shift amount `b[4:0]` of a word shift (R260). -/
def shamt5 (b : Word) : Nat := b.toNat % 32

/-- `a << b[5:0]` (R269, R274). -/
def aluSll (a b : Word) : Word := a <<< shamt6 b

/-- `u(a) >> b[5:0]` (R270, R278). -/
def aluSrl (a b : Word) : Word := a >>> shamt6 b

/-- `s(a) >> b[5:0]`: copies of bit 63 enter (R271, R279). -/
def aluSra (a b : Word) : Word := a.sshiftRight (shamt6 b)

/-- `sext_32((a + b)[31:0])` (R282, R286). -/
def aluAddw (a b : Word) : Word := sext (low32 (a + b))

/-- `sext_32((a - b)[31:0])` (R287). -/
def aluSubw (a b : Word) : Word := sext (low32 (a - b))

/-- `sext_32((a << b[4:0])[31:0])` (R283, R288). -/
def aluSllw (a b : Word) : Word := sext (low32 (a <<< shamt5 b))

/-- `sext_32(a[31:0] >> b[4:0])` (R284, R289). -/
def aluSrlw (a b : Word) : Word := sext (low32 a >>> shamt5 b)

/-- `sext_32(s(sext_32(a[31:0])) >> b[4:0])` (R285, R290). -/
def aluSraw (a b : Word) : Word := sext ((low32 a).sshiftRight (shamt5 b))

/-! ### Multiply and divide (R360 to R373) -/

/-- The low half of the product (R361). -/
def mulLow (a b : Word) : Word := a * b

/-- Bits 127:64 of an exact product (R360). -/
def highHalf (p : Int) : Word := (BitVec.ofInt 128 p).extractLsb' 64 64

/-- The high half of the signed product (R362). -/
def mulHigh (a b : Word) : Word := highHalf (a.toInt * b.toInt)

/-- The high half of the product of a signed and an unsigned operand (R363). -/
def mulHighSU (a b : Word) : Word := highHalf (a.toInt * (b.toNat : Int))

/-- The high half of the unsigned product (R364). -/
def mulHighU (a b : Word) : Word := highHalf ((a.toNat : Int) * (b.toNat : Int))

/-- Signed quotient toward zero: all ones for a zero divisor, the dividend on overflow (R360, R365, R370). -/
def divSigned {w : Nat} (a b : BitVec w) : BitVec w :=
  if b = 0 then BitVec.allOnes w
  else if a = BitVec.intMin w ∧ b = BitVec.allOnes w then a
  else BitVec.ofInt w (a.toInt.tdiv b.toInt)

/-- Unsigned quotient: all ones for a zero divisor (R360, R366, R371). -/
def divUnsigned {w : Nat} (a b : BitVec w) : BitVec w :=
  if b = 0 then BitVec.allOnes w else BitVec.ofNat w (a.toNat / b.toNat)

/-- Signed remainder, with the sign of the dividend: the dividend for a zero divisor, 0 on overflow (R360, R367,
R372). -/
def remSigned {w : Nat} (a b : BitVec w) : BitVec w :=
  if b = 0 then a
  else if a = BitVec.intMin w ∧ b = BitVec.allOnes w then 0
  else BitVec.ofInt w (a.toInt - b.toInt * a.toInt.tdiv b.toInt)

/-- Unsigned remainder: the dividend for a zero divisor (R360, R368, R373). -/
def remUnsigned {w : Nat} (a b : BitVec w) : BitVec w :=
  if b = 0 then a else BitVec.ofNat w (a.toNat % b.toNat)

/-- A word form: the operation on the low 32 bits, its 32-bit result sign-extended (R360). -/
def wordForm (f : BitVec 32 → BitVec 32 → BitVec 32) (a b : Word) : Word := sext (f (low32 a) (low32 b))

/-- `sext_32((a * b)[31:0])` (R369). -/
def mulWord (a b : Word) : Word := sext (low32 (a * b))

/-! ### Branch conditions (R323 to R328) -/

/-- `s(a) < s(b)` (R325). -/
def ltSigned (a b : Word) : Bool := decide (a.toInt < b.toInt)

/-- `u(a) < u(b)` (R327). -/
def ltUnsigned (a b : Word) : Bool := decide (a.toNat < b.toNat)

/-! ### Atomic operations, at the width of the access (R380, R383 to R391) -/

/-- Swap: the register's value (R383). -/
def amoSwap {w : Nat} (_old v : BitVec w) : BitVec w := v

/-- Add (R384). -/
def amoAdd {w : Nat} (old v : BitVec w) : BitVec w := old + v

/-- Exclusive or (R385). -/
def amoXor {w : Nat} (old v : BitVec w) : BitVec w := old ^^^ v

/-- And (R386). -/
def amoAnd {w : Nat} (old v : BitVec w) : BitVec w := old &&& v

/-- Or (R387). -/
def amoOr {w : Nat} (old v : BitVec w) : BitVec w := old ||| v

/-- Signed minimum (R388). -/
def amoMin {w : Nat} (old v : BitVec w) : BitVec w := if old.toInt ≤ v.toInt then old else v

/-- Signed maximum (R389). -/
def amoMax {w : Nat} (old v : BitVec w) : BitVec w := if old.toInt ≥ v.toInt then old else v

/-- Unsigned minimum (R390). -/
def amoMinu {w : Nat} (old v : BitVec w) : BitVec w := if old.toNat ≤ v.toNat then old else v

/-- Unsigned maximum (R391). -/
def amoMaxu {w : Nat} (old v : BitVec w) : BitVec w := if old.toNat ≥ v.toNat then old else v

end Sys2Proof.Machine
end

