-- ==== Sys2Proof/Syntax.lean ====
section
/-! DEFINITION. The instructions: one constructor for each of the 224 rows of the opcode table, with the operands of that
row at the width its bit segments give (R15, R183, R190, R193). Register fields name registers by number (R189); a primed
field `k` names register `8 + k` (R192). Immediates are held as the spec's unassembled operand values are read: unsigned
numbers, byte offsets with their low zero bits included; each meaning sign-extends them itself (R15). -/

namespace Sys2Proof

/-- One instruction of the default instruction-set description (R2, R180). -/
inductive Instr where
  /-- `lui`: load upper immediate (R261). -/
  | lui (rd : BitVec 5) (imm : BitVec 32)
  /-- `auipc`: add upper immediate to pc (R262). -/
  | auipc (rd : BitVec 5) (imm : BitVec 32)
  /-- `addi`: add immediate (R263). -/
  | addi (rd : BitVec 5) (rs1 : BitVec 5) (imm : BitVec 12)
  /-- `slti`: set if less than immediate, signed (R264). -/
  | slti (rd : BitVec 5) (rs1 : BitVec 5) (imm : BitVec 12)
  /-- `sltiu`: set if less than immediate, unsigned (R265). -/
  | sltiu (rd : BitVec 5) (rs1 : BitVec 5) (imm : BitVec 12)
  /-- `xori`: exclusive or immediate (R266). -/
  | xori (rd : BitVec 5) (rs1 : BitVec 5) (imm : BitVec 12)
  /-- `ori`: or immediate (R267). -/
  | ori (rd : BitVec 5) (rs1 : BitVec 5) (imm : BitVec 12)
  /-- `andi`: and immediate (R268). -/
  | andi (rd : BitVec 5) (rs1 : BitVec 5) (imm : BitVec 12)
  /-- `slli`: shift left logical immediate (R269). -/
  | slli (rd : BitVec 5) (rs1 : BitVec 5) (shamt : BitVec 6)
  /-- `srli`: shift right logical immediate (R270). -/
  | srli (rd : BitVec 5) (rs1 : BitVec 5) (shamt : BitVec 6)
  /-- `srai`: shift right arithmetic immediate (R271). -/
  | srai (rd : BitVec 5) (rs1 : BitVec 5) (shamt : BitVec 6)
  /-- `add`: add (R272). -/
  | add (rd : BitVec 5) (rs1 : BitVec 5) (rs2 : BitVec 5)
  /-- `sub`: subtract (R273). -/
  | sub (rd : BitVec 5) (rs1 : BitVec 5) (rs2 : BitVec 5)
  /-- `sll`: shift left logical (R274). -/
  | sll (rd : BitVec 5) (rs1 : BitVec 5) (rs2 : BitVec 5)
  /-- `slt`: set if less than, signed (R275). -/
  | slt (rd : BitVec 5) (rs1 : BitVec 5) (rs2 : BitVec 5)
  /-- `sltu`: set if less than, unsigned (R276). -/
  | sltu (rd : BitVec 5) (rs1 : BitVec 5) (rs2 : BitVec 5)
  /-- `xor`: exclusive or (R277). -/
  | xor (rd : BitVec 5) (rs1 : BitVec 5) (rs2 : BitVec 5)
  /-- `srl`: shift right logical (R278). -/
  | srl (rd : BitVec 5) (rs1 : BitVec 5) (rs2 : BitVec 5)
  /-- `sra`: shift right arithmetic (R279). -/
  | sra (rd : BitVec 5) (rs1 : BitVec 5) (rs2 : BitVec 5)
  /-- `or`: or (R280). -/
  | or (rd : BitVec 5) (rs1 : BitVec 5) (rs2 : BitVec 5)
  /-- `and`: and (R281). -/
  | and (rd : BitVec 5) (rs1 : BitVec 5) (rs2 : BitVec 5)
  /-- `addiw`: add immediate, word (R282). -/
  | addiw (rd : BitVec 5) (rs1 : BitVec 5) (imm : BitVec 12)
  /-- `slliw`: shift left logical immediate, word (R283). -/
  | slliw (rd : BitVec 5) (rs1 : BitVec 5) (shamt : BitVec 5)
  /-- `srliw`: shift right logical immediate, word (R284). -/
  | srliw (rd : BitVec 5) (rs1 : BitVec 5) (shamt : BitVec 5)
  /-- `sraiw`: shift right arithmetic immediate, word (R285). -/
  | sraiw (rd : BitVec 5) (rs1 : BitVec 5) (shamt : BitVec 5)
  /-- `addw`: add, word (R286). -/
  | addw (rd : BitVec 5) (rs1 : BitVec 5) (rs2 : BitVec 5)
  /-- `subw`: subtract, word (R287). -/
  | subw (rd : BitVec 5) (rs1 : BitVec 5) (rs2 : BitVec 5)
  /-- `sllw`: shift left logical, word (R288). -/
  | sllw (rd : BitVec 5) (rs1 : BitVec 5) (rs2 : BitVec 5)
  /-- `srlw`: shift right logical, word (R289). -/
  | srlw (rd : BitVec 5) (rs1 : BitVec 5) (rs2 : BitVec 5)
  /-- `sraw`: shift right arithmetic, word (R290). -/
  | sraw (rd : BitVec 5) (rs1 : BitVec 5) (rs2 : BitVec 5)
  /-- `jal`: jump and link (R321). -/
  | jal (rd : BitVec 5) (imm : BitVec 21)
  /-- `jalr`: jump and link register (R322). -/
  | jalr (rd : BitVec 5) (rs1 : BitVec 5) (imm : BitVec 12)
  /-- `beq`: branch if equal (R323). -/
  | beq (rs1 : BitVec 5) (rs2 : BitVec 5) (imm : BitVec 13)
  /-- `bne`: branch if not equal (R324). -/
  | bne (rs1 : BitVec 5) (rs2 : BitVec 5) (imm : BitVec 13)
  /-- `blt`: branch if less than, signed (R325). -/
  | blt (rs1 : BitVec 5) (rs2 : BitVec 5) (imm : BitVec 13)
  /-- `bge`: branch if greater or equal, signed (R326). -/
  | bge (rs1 : BitVec 5) (rs2 : BitVec 5) (imm : BitVec 13)
  /-- `bltu`: branch if less than, unsigned (R327). -/
  | bltu (rs1 : BitVec 5) (rs2 : BitVec 5) (imm : BitVec 13)
  /-- `bgeu`: branch if greater or equal, unsigned (R328). -/
  | bgeu (rs1 : BitVec 5) (rs2 : BitVec 5) (imm : BitVec 13)
  /-- `lb`: load byte, signed (R341). -/
  | lb (rd : BitVec 5) (rs1 : BitVec 5) (imm : BitVec 12)
  /-- `lh`: load halfword, signed (R342). -/
  | lh (rd : BitVec 5) (rs1 : BitVec 5) (imm : BitVec 12)
  /-- `lw`: load word, signed (R343). -/
  | lw (rd : BitVec 5) (rs1 : BitVec 5) (imm : BitVec 12)
  /-- `ld`: load doubleword (R344). -/
  | ld (rd : BitVec 5) (rs1 : BitVec 5) (imm : BitVec 12)
  /-- `lbu`: load byte, unsigned (R345). -/
  | lbu (rd : BitVec 5) (rs1 : BitVec 5) (imm : BitVec 12)
  /-- `lhu`: load halfword, unsigned (R346). -/
  | lhu (rd : BitVec 5) (rs1 : BitVec 5) (imm : BitVec 12)
  /-- `lwu`: load word, unsigned (R347). -/
  | lwu (rd : BitVec 5) (rs1 : BitVec 5) (imm : BitVec 12)
  /-- `sb`: store byte (R348). -/
  | sb (rs1 : BitVec 5) (rs2 : BitVec 5) (imm : BitVec 12)
  /-- `sh`: store halfword (R349). -/
  | sh (rs1 : BitVec 5) (rs2 : BitVec 5) (imm : BitVec 12)
  /-- `sw`: store word (R350). -/
  | sw (rs1 : BitVec 5) (rs2 : BitVec 5) (imm : BitVec 12)
  /-- `sd`: store doubleword (R351). -/
  | sd (rs1 : BitVec 5) (rs2 : BitVec 5) (imm : BitVec 12)
  /-- `mul`: multiply, low 64 bits (R361). -/
  | mul (rd : BitVec 5) (rs1 : BitVec 5) (rs2 : BitVec 5)
  /-- `mulh`: multiply high, signed × signed (R362). -/
  | mulh (rd : BitVec 5) (rs1 : BitVec 5) (rs2 : BitVec 5)
  /-- `mulhsu`: multiply high, signed × unsigned (R363). -/
  | mulhsu (rd : BitVec 5) (rs1 : BitVec 5) (rs2 : BitVec 5)
  /-- `mulhu`: multiply high, unsigned × unsigned (R364). -/
  | mulhu (rd : BitVec 5) (rs1 : BitVec 5) (rs2 : BitVec 5)
  /-- `div`: divide, signed (R365). -/
  | div (rd : BitVec 5) (rs1 : BitVec 5) (rs2 : BitVec 5)
  /-- `divu`: divide, unsigned (R366). -/
  | divu (rd : BitVec 5) (rs1 : BitVec 5) (rs2 : BitVec 5)
  /-- `rem`: remainder, signed (R367). -/
  | rem (rd : BitVec 5) (rs1 : BitVec 5) (rs2 : BitVec 5)
  /-- `remu`: remainder, unsigned (R368). -/
  | remu (rd : BitVec 5) (rs1 : BitVec 5) (rs2 : BitVec 5)
  /-- `mulw`: multiply word (R369). -/
  | mulw (rd : BitVec 5) (rs1 : BitVec 5) (rs2 : BitVec 5)
  /-- `divw`: divide word, signed (R370). -/
  | divw (rd : BitVec 5) (rs1 : BitVec 5) (rs2 : BitVec 5)
  /-- `divuw`: divide word, unsigned (R371). -/
  | divuw (rd : BitVec 5) (rs1 : BitVec 5) (rs2 : BitVec 5)
  /-- `remw`: remainder word, signed (R372). -/
  | remw (rd : BitVec 5) (rs1 : BitVec 5) (rs2 : BitVec 5)
  /-- `remuw`: remainder word, unsigned (R373). -/
  | remuw (rd : BitVec 5) (rs1 : BitVec 5) (rs2 : BitVec 5)
  /-- `lr.w`: load-reserved word (R381). -/
  | lrW (rd : BitVec 5) (rs1 : BitVec 5) (aq : BitVec 1) (rl : BitVec 1)
  /-- `sc.w`: store-conditional word, which always succeeds (R382). -/
  | scW (rd : BitVec 5) (rs1 : BitVec 5) (rs2 : BitVec 5) (aq : BitVec 1) (rl : BitVec 1)
  /-- `amoswap.w`: atomic swap, word (R383). -/
  | amoswapW (rd : BitVec 5) (rs1 : BitVec 5) (rs2 : BitVec 5) (aq : BitVec 1) (rl : BitVec 1)
  /-- `amoadd.w`: atomic add, word (R384). -/
  | amoaddW (rd : BitVec 5) (rs1 : BitVec 5) (rs2 : BitVec 5) (aq : BitVec 1) (rl : BitVec 1)
  /-- `amoxor.w`: atomic exclusive or, word (R385). -/
  | amoxorW (rd : BitVec 5) (rs1 : BitVec 5) (rs2 : BitVec 5) (aq : BitVec 1) (rl : BitVec 1)
  /-- `amoand.w`: atomic and, word (R386). -/
  | amoandW (rd : BitVec 5) (rs1 : BitVec 5) (rs2 : BitVec 5) (aq : BitVec 1) (rl : BitVec 1)
  /-- `amoor.w`: atomic or, word (R387). -/
  | amoorW (rd : BitVec 5) (rs1 : BitVec 5) (rs2 : BitVec 5) (aq : BitVec 1) (rl : BitVec 1)
  /-- `amomin.w`: atomic minimum, signed, word (R388). -/
  | amominW (rd : BitVec 5) (rs1 : BitVec 5) (rs2 : BitVec 5) (aq : BitVec 1) (rl : BitVec 1)
  /-- `amomax.w`: atomic maximum, signed, word (R389). -/
  | amomaxW (rd : BitVec 5) (rs1 : BitVec 5) (rs2 : BitVec 5) (aq : BitVec 1) (rl : BitVec 1)
  /-- `amominu.w`: atomic minimum, unsigned, word (R390). -/
  | amominuW (rd : BitVec 5) (rs1 : BitVec 5) (rs2 : BitVec 5) (aq : BitVec 1) (rl : BitVec 1)
  /-- `amomaxu.w`: atomic maximum, unsigned, word (R391). -/
  | amomaxuW (rd : BitVec 5) (rs1 : BitVec 5) (rs2 : BitVec 5) (aq : BitVec 1) (rl : BitVec 1)
  /-- `lr.d`: load-reserved doubleword (R392). -/
  | lrD (rd : BitVec 5) (rs1 : BitVec 5) (aq : BitVec 1) (rl : BitVec 1)
  /-- `sc.d`: store-conditional doubleword, which always succeeds (R393). -/
  | scD (rd : BitVec 5) (rs1 : BitVec 5) (rs2 : BitVec 5) (aq : BitVec 1) (rl : BitVec 1)
  /-- `amoswap.d`: atomic swap, doubleword (R394). -/
  | amoswapD (rd : BitVec 5) (rs1 : BitVec 5) (rs2 : BitVec 5) (aq : BitVec 1) (rl : BitVec 1)
  /-- `amoadd.d`: atomic add, doubleword (R395). -/
  | amoaddD (rd : BitVec 5) (rs1 : BitVec 5) (rs2 : BitVec 5) (aq : BitVec 1) (rl : BitVec 1)
  /-- `amoxor.d`: atomic exclusive or, doubleword (R396). -/
  | amoxorD (rd : BitVec 5) (rs1 : BitVec 5) (rs2 : BitVec 5) (aq : BitVec 1) (rl : BitVec 1)
  /-- `amoand.d`: atomic and, doubleword (R397). -/
  | amoandD (rd : BitVec 5) (rs1 : BitVec 5) (rs2 : BitVec 5) (aq : BitVec 1) (rl : BitVec 1)
  /-- `amoor.d`: atomic or, doubleword (R398). -/
  | amoorD (rd : BitVec 5) (rs1 : BitVec 5) (rs2 : BitVec 5) (aq : BitVec 1) (rl : BitVec 1)
  /-- `amomin.d`: atomic minimum, signed, doubleword (R399). -/
  | amominD (rd : BitVec 5) (rs1 : BitVec 5) (rs2 : BitVec 5) (aq : BitVec 1) (rl : BitVec 1)
  /-- `amomax.d`: atomic maximum, signed, doubleword (R400). -/
  | amomaxD (rd : BitVec 5) (rs1 : BitVec 5) (rs2 : BitVec 5) (aq : BitVec 1) (rl : BitVec 1)
  /-- `amominu.d`: atomic minimum, unsigned, doubleword (R401). -/
  | amominuD (rd : BitVec 5) (rs1 : BitVec 5) (rs2 : BitVec 5) (aq : BitVec 1) (rl : BitVec 1)
  /-- `amomaxu.d`: atomic maximum, unsigned, doubleword (R402). -/
  | amomaxuD (rd : BitVec 5) (rs1 : BitVec 5) (rs2 : BitVec 5) (aq : BitVec 1) (rl : BitVec 1)
  /-- `csrrw`: atomic read/write CSR (R411). -/
  | csrrw (rd : BitVec 5) (rs1 : BitVec 5) (csr : BitVec 12)
  /-- `csrrs`: atomic read and set bits in CSR (R412). -/
  | csrrs (rd : BitVec 5) (rs1 : BitVec 5) (csr : BitVec 12)
  /-- `csrrc`: atomic read and clear bits in CSR (R413). -/
  | csrrc (rd : BitVec 5) (rs1 : BitVec 5) (csr : BitVec 12)
  /-- `csrrwi`: atomic read/write CSR, immediate (R414). -/
  | csrrwi (rd : BitVec 5) (uimm : BitVec 5) (csr : BitVec 12)
  /-- `csrrsi`: atomic read and set bits in CSR, immediate (R415). -/
  | csrrsi (rd : BitVec 5) (uimm : BitVec 5) (csr : BitVec 12)
  /-- `csrrci`: atomic read and clear bits in CSR, immediate (R416). -/
  | csrrci (rd : BitVec 5) (uimm : BitVec 5) (csr : BitVec 12)
  /-- `fence`: memory ordering fence (R421). -/
  | fence (fm : BitVec 4) (pred : BitVec 4) (succ : BitVec 4) (rs1 : BitVec 5) (rd : BitVec 5)
  /-- `fence.i`: instruction-fetch fence (R422). -/
  | fenceI (imm : BitVec 12) (rs1 : BitVec 5) (rd : BitVec 5)
  /-- `ecall`: environment call (R423). -/
  | ecall
  /-- `ebreak`: breakpoint, or semihosting call (R424). -/
  | ebreak
  /-- `sret`: return from supervisor trap (R425). -/
  | sret
  /-- `mret`: return from machine trap (R426). -/
  | mret
  /-- `wfi`: wait for interrupt (R427). -/
  | wfi
  /-- `sfence.vma`: flush translation cache (R428). -/
  | sfenceVma (rs1 : BitVec 5) (rs2 : BitVec 5)
  /-- `c.addi4spn`: add scaled immediate to stack pointer, non-destructive (R441). -/
  | cAddi4spn (rdP : BitVec 3) (imm : BitVec 10)
  /-- `c.fld`: load double-precision, compressed (R442). -/
  | cFld (rdP : BitVec 3) (rs1P : BitVec 3) (imm : BitVec 8)
  /-- `c.lw`: load word, compressed (R443). -/
  | cLw (rdP : BitVec 3) (rs1P : BitVec 3) (imm : BitVec 7)
  /-- `c.ld`: load doubleword, compressed (R444). -/
  | cLd (rdP : BitVec 3) (rs1P : BitVec 3) (imm : BitVec 8)
  /-- `c.fsd`: store double-precision, compressed (R445). -/
  | cFsd (rs2P : BitVec 3) (rs1P : BitVec 3) (imm : BitVec 8)
  /-- `c.sw`: store word, compressed (R446). -/
  | cSw (rs2P : BitVec 3) (rs1P : BitVec 3) (imm : BitVec 7)
  /-- `c.sd`: store doubleword, compressed (R447). -/
  | cSd (rs2P : BitVec 3) (rs1P : BitVec 3) (imm : BitVec 8)
  /-- `c.addi`: add immediate, compressed (R448). -/
  | cAddi (rd : BitVec 5) (imm : BitVec 6)
  /-- `c.addiw`: add immediate word, compressed (R449). -/
  | cAddiw (rd : BitVec 5) (imm : BitVec 6)
  /-- `c.li`: load immediate, compressed (R450). -/
  | cLi (rd : BitVec 5) (imm : BitVec 6)
  /-- `c.addi16sp`: adjust stack pointer, compressed (R451). -/
  | cAddi16sp (imm : BitVec 10)
  /-- `c.lui`: load upper immediate, compressed (R452). -/
  | cLui (rd : BitVec 5) (imm : BitVec 18)
  /-- `c.srli`: shift right logical immediate, compressed (R453). -/
  | cSrli (rdP : BitVec 3) (shamt : BitVec 6)
  /-- `c.srai`: shift right arithmetic immediate, compressed (R454). -/
  | cSrai (rdP : BitVec 3) (shamt : BitVec 6)
  /-- `c.andi`: and immediate, compressed (R455). -/
  | cAndi (rdP : BitVec 3) (imm : BitVec 6)
  /-- `c.sub`: subtract, compressed (R456). -/
  | cSub (rdP : BitVec 3) (rs2P : BitVec 3)
  /-- `c.xor`: exclusive or, compressed (R457). -/
  | cXor (rdP : BitVec 3) (rs2P : BitVec 3)
  /-- `c.or`: or, compressed (R458). -/
  | cOr (rdP : BitVec 3) (rs2P : BitVec 3)
  /-- `c.and`: and, compressed (R459). -/
  | cAnd (rdP : BitVec 3) (rs2P : BitVec 3)
  /-- `c.subw`: subtract word, compressed (R460). -/
  | cSubw (rdP : BitVec 3) (rs2P : BitVec 3)
  /-- `c.addw`: add word, compressed (R461). -/
  | cAddw (rdP : BitVec 3) (rs2P : BitVec 3)
  /-- `c.j`: jump, compressed (R462). -/
  | cJ (imm : BitVec 12)
  /-- `c.beqz`: branch if zero, compressed (R463). -/
  | cBeqz (rs1P : BitVec 3) (imm : BitVec 9)
  /-- `c.bnez`: branch if not zero, compressed (R464). -/
  | cBnez (rs1P : BitVec 3) (imm : BitVec 9)
  /-- `c.slli`: shift left logical immediate, compressed (R465). -/
  | cSlli (rd : BitVec 5) (shamt : BitVec 6)
  /-- `c.fldsp`: load double-precision from stack, compressed (R466). -/
  | cFldsp (rd : BitVec 5) (imm : BitVec 9)
  /-- `c.lwsp`: load word from stack, compressed (R467). -/
  | cLwsp (rd : BitVec 5) (imm : BitVec 8)
  /-- `c.ldsp`: load doubleword from stack, compressed (R468). -/
  | cLdsp (rd : BitVec 5) (imm : BitVec 9)
  /-- `c.jr`: jump register, compressed (R469). -/
  | cJr (rs1 : BitVec 5)
  /-- `c.mv`: move register, compressed (R470). -/
  | cMv (rd : BitVec 5) (rs2 : BitVec 5)
  /-- `c.ebreak`: breakpoint, compressed (R471). -/
  | cEbreak
  /-- `c.jalr`: jump and link register, compressed (R472). -/
  | cJalr (rs1 : BitVec 5)
  /-- `c.add`: add registers, compressed (R473). -/
  | cAdd (rd : BitVec 5) (rs2 : BitVec 5)
  /-- `c.fsdsp`: store double-precision to stack, compressed (R474). -/
  | cFsdsp (rs2 : BitVec 5) (imm : BitVec 9)
  /-- `c.swsp`: store word to stack, compressed (R475). -/
  | cSwsp (rs2 : BitVec 5) (imm : BitVec 8)
  /-- `c.sdsp`: store doubleword to stack, compressed (R476). -/
  | cSdsp (rs2 : BitVec 5) (imm : BitVec 9)
  /-- `flw`: load single-precision (R491). -/
  | flw (rd : BitVec 5) (rs1 : BitVec 5) (imm : BitVec 12)
  /-- `fld`: load double-precision (R492). -/
  | fld (rd : BitVec 5) (rs1 : BitVec 5) (imm : BitVec 12)
  /-- `fsw`: store single-precision (R493). -/
  | fsw (rs1 : BitVec 5) (rs2 : BitVec 5) (imm : BitVec 12)
  /-- `fsd`: store double-precision (R494). -/
  | fsd (rs1 : BitVec 5) (rs2 : BitVec 5) (imm : BitVec 12)
  /-- `fmv.x.w`: move single-precision bits to integer register (R495). -/
  | fmvXW (rd : BitVec 5) (rs1 : BitVec 5)
  /-- `fmv.w.x`: move integer bits to single-precision register (R496). -/
  | fmvWX (rd : BitVec 5) (rs1 : BitVec 5)
  /-- `fmv.x.d`: move double-precision bits to integer register (R497). -/
  | fmvXD (rd : BitVec 5) (rs1 : BitVec 5)
  /-- `fmv.d.x`: move integer bits to double-precision register (R498). -/
  | fmvDX (rd : BitVec 5) (rs1 : BitVec 5)
  /-- `fadd.s`: add, single-precision (stub) (R511). -/
  | faddS (rd : BitVec 5) (rs1 : BitVec 5) (rs2 : BitVec 5) (rm : BitVec 3)
  /-- `fsub.s`: subtract, single-precision (stub) (R512). -/
  | fsubS (rd : BitVec 5) (rs1 : BitVec 5) (rs2 : BitVec 5) (rm : BitVec 3)
  /-- `fmul.s`: multiply, single-precision (stub) (R513). -/
  | fmulS (rd : BitVec 5) (rs1 : BitVec 5) (rs2 : BitVec 5) (rm : BitVec 3)
  /-- `fdiv.s`: divide, single-precision (stub) (R514). -/
  | fdivS (rd : BitVec 5) (rs1 : BitVec 5) (rs2 : BitVec 5) (rm : BitVec 3)
  /-- `fsqrt.s`: square root, single-precision (stub) (R515). -/
  | fsqrtS (rd : BitVec 5) (rs1 : BitVec 5) (rm : BitVec 3)
  /-- `fsgnj.s`: sign inject, single-precision (stub) (R516). -/
  | fsgnjS (rd : BitVec 5) (rs1 : BitVec 5) (rs2 : BitVec 5)
  /-- `fsgnjn.s`: sign inject negated, single-precision (stub) (R517). -/
  | fsgnjnS (rd : BitVec 5) (rs1 : BitVec 5) (rs2 : BitVec 5)
  /-- `fsgnjx.s`: sign inject xor, single-precision (stub) (R518). -/
  | fsgnjxS (rd : BitVec 5) (rs1 : BitVec 5) (rs2 : BitVec 5)
  /-- `fmin.s`: minimum, single-precision (stub) (R519). -/
  | fminS (rd : BitVec 5) (rs1 : BitVec 5) (rs2 : BitVec 5)
  /-- `fmax.s`: maximum, single-precision (stub) (R520). -/
  | fmaxS (rd : BitVec 5) (rs1 : BitVec 5) (rs2 : BitVec 5)
  /-- `feq.s`: compare equal, single-precision (stub) (R521). -/
  | feqS (rd : BitVec 5) (rs1 : BitVec 5) (rs2 : BitVec 5)
  /-- `flt.s`: compare less than, single-precision (stub) (R522). -/
  | fltS (rd : BitVec 5) (rs1 : BitVec 5) (rs2 : BitVec 5)
  /-- `fle.s`: compare less or equal, single-precision (stub) (R523). -/
  | fleS (rd : BitVec 5) (rs1 : BitVec 5) (rs2 : BitVec 5)
  /-- `fclass.s`: classify, single-precision (stub) (R524). -/
  | fclassS (rd : BitVec 5) (rs1 : BitVec 5)
  /-- `fcvt.w.s`: convert single-precision to signed word integer (stub) (R525). -/
  | fcvtWS (rd : BitVec 5) (rs1 : BitVec 5) (rm : BitVec 3)
  /-- `fcvt.wu.s`: convert single-precision to unsigned word integer (stub) (R526). -/
  | fcvtWuS (rd : BitVec 5) (rs1 : BitVec 5) (rm : BitVec 3)
  /-- `fcvt.l.s`: convert single-precision to signed doubleword integer (stub) (R527). -/
  | fcvtLS (rd : BitVec 5) (rs1 : BitVec 5) (rm : BitVec 3)
  /-- `fcvt.lu.s`: convert single-precision to unsigned doubleword integer (stub) (R528). -/
  | fcvtLuS (rd : BitVec 5) (rs1 : BitVec 5) (rm : BitVec 3)
  /-- `fcvt.s.w`: convert signed word integer to single-precision (stub) (R529). -/
  | fcvtSW (rd : BitVec 5) (rs1 : BitVec 5) (rm : BitVec 3)
  /-- `fcvt.s.wu`: convert unsigned word integer to single-precision (stub) (R530). -/
  | fcvtSWu (rd : BitVec 5) (rs1 : BitVec 5) (rm : BitVec 3)
  /-- `fcvt.s.l`: convert signed doubleword integer to single-precision (stub) (R531). -/
  | fcvtSL (rd : BitVec 5) (rs1 : BitVec 5) (rm : BitVec 3)
  /-- `fcvt.s.lu`: convert unsigned doubleword integer to single-precision (stub) (R532). -/
  | fcvtSLu (rd : BitVec 5) (rs1 : BitVec 5) (rm : BitVec 3)
  /-- `fadd.d`: add, double-precision (stub) (R533). -/
  | faddD (rd : BitVec 5) (rs1 : BitVec 5) (rs2 : BitVec 5) (rm : BitVec 3)
  /-- `fsub.d`: subtract, double-precision (stub) (R534). -/
  | fsubD (rd : BitVec 5) (rs1 : BitVec 5) (rs2 : BitVec 5) (rm : BitVec 3)
  /-- `fmul.d`: multiply, double-precision (stub) (R535). -/
  | fmulD (rd : BitVec 5) (rs1 : BitVec 5) (rs2 : BitVec 5) (rm : BitVec 3)
  /-- `fdiv.d`: divide, double-precision (stub) (R536). -/
  | fdivD (rd : BitVec 5) (rs1 : BitVec 5) (rs2 : BitVec 5) (rm : BitVec 3)
  /-- `fsqrt.d`: square root, double-precision (stub) (R537). -/
  | fsqrtD (rd : BitVec 5) (rs1 : BitVec 5) (rm : BitVec 3)
  /-- `fsgnj.d`: sign inject, double-precision (stub) (R538). -/
  | fsgnjD (rd : BitVec 5) (rs1 : BitVec 5) (rs2 : BitVec 5)
  /-- `fsgnjn.d`: sign inject negated, double-precision (stub) (R539). -/
  | fsgnjnD (rd : BitVec 5) (rs1 : BitVec 5) (rs2 : BitVec 5)
  /-- `fsgnjx.d`: sign inject xor, double-precision (stub) (R540). -/
  | fsgnjxD (rd : BitVec 5) (rs1 : BitVec 5) (rs2 : BitVec 5)
  /-- `fmin.d`: minimum, double-precision (stub) (R541). -/
  | fminD (rd : BitVec 5) (rs1 : BitVec 5) (rs2 : BitVec 5)
  /-- `fmax.d`: maximum, double-precision (stub) (R542). -/
  | fmaxD (rd : BitVec 5) (rs1 : BitVec 5) (rs2 : BitVec 5)
  /-- `feq.d`: compare equal, double-precision (stub) (R543). -/
  | feqD (rd : BitVec 5) (rs1 : BitVec 5) (rs2 : BitVec 5)
  /-- `flt.d`: compare less than, double-precision (stub) (R544). -/
  | fltD (rd : BitVec 5) (rs1 : BitVec 5) (rs2 : BitVec 5)
  /-- `fle.d`: compare less or equal, double-precision (stub) (R545). -/
  | fleD (rd : BitVec 5) (rs1 : BitVec 5) (rs2 : BitVec 5)
  /-- `fclass.d`: classify, double-precision (stub) (R546). -/
  | fclassD (rd : BitVec 5) (rs1 : BitVec 5)
  /-- `fcvt.w.d`: convert double-precision to signed word integer (stub) (R547). -/
  | fcvtWD (rd : BitVec 5) (rs1 : BitVec 5) (rm : BitVec 3)
  /-- `fcvt.wu.d`: convert double-precision to unsigned word integer (stub) (R548). -/
  | fcvtWuD (rd : BitVec 5) (rs1 : BitVec 5) (rm : BitVec 3)
  /-- `fcvt.l.d`: convert double-precision to signed doubleword integer (stub) (R549). -/
  | fcvtLD (rd : BitVec 5) (rs1 : BitVec 5) (rm : BitVec 3)
  /-- `fcvt.lu.d`: convert double-precision to unsigned doubleword integer (stub) (R550). -/
  | fcvtLuD (rd : BitVec 5) (rs1 : BitVec 5) (rm : BitVec 3)
  /-- `fcvt.d.w`: convert signed word integer to double-precision (stub) (R551). -/
  | fcvtDW (rd : BitVec 5) (rs1 : BitVec 5) (rm : BitVec 3)
  /-- `fcvt.d.wu`: convert unsigned word integer to double-precision (stub) (R552). -/
  | fcvtDWu (rd : BitVec 5) (rs1 : BitVec 5) (rm : BitVec 3)
  /-- `fcvt.d.l`: convert signed doubleword integer to double-precision (stub) (R553). -/
  | fcvtDL (rd : BitVec 5) (rs1 : BitVec 5) (rm : BitVec 3)
  /-- `fcvt.d.lu`: convert unsigned doubleword integer to double-precision (stub) (R554). -/
  | fcvtDLu (rd : BitVec 5) (rs1 : BitVec 5) (rm : BitVec 3)
  /-- `fcvt.s.d`: convert double-precision to single-precision (stub) (R555). -/
  | fcvtSD (rd : BitVec 5) (rs1 : BitVec 5) (rm : BitVec 3)
  /-- `fcvt.d.s`: convert single-precision to double-precision (stub) (R556). -/
  | fcvtDS (rd : BitVec 5) (rs1 : BitVec 5) (rm : BitVec 3)
  /-- `fmadd.s`: fused multiply-add, single-precision (stub) (R557). -/
  | fmaddS (rd : BitVec 5) (rs1 : BitVec 5) (rs2 : BitVec 5) (rs3 : BitVec 5) (rm : BitVec 3)
  /-- `fmsub.s`: fused multiply-subtract, single-precision (stub) (R558). -/
  | fmsubS (rd : BitVec 5) (rs1 : BitVec 5) (rs2 : BitVec 5) (rs3 : BitVec 5) (rm : BitVec 3)
  /-- `fnmsub.s`: negated fused multiply-subtract, single-precision (stub) (R559). -/
  | fnmsubS (rd : BitVec 5) (rs1 : BitVec 5) (rs2 : BitVec 5) (rs3 : BitVec 5) (rm : BitVec 3)
  /-- `fnmadd.s`: negated fused multiply-add, single-precision (stub) (R560). -/
  | fnmaddS (rd : BitVec 5) (rs1 : BitVec 5) (rs2 : BitVec 5) (rs3 : BitVec 5) (rm : BitVec 3)
  /-- `fmadd.d`: fused multiply-add, double-precision (stub) (R561). -/
  | fmaddD (rd : BitVec 5) (rs1 : BitVec 5) (rs2 : BitVec 5) (rs3 : BitVec 5) (rm : BitVec 3)
  /-- `fmsub.d`: fused multiply-subtract, double-precision (stub) (R562). -/
  | fmsubD (rd : BitVec 5) (rs1 : BitVec 5) (rs2 : BitVec 5) (rs3 : BitVec 5) (rm : BitVec 3)
  /-- `fnmsub.d`: negated fused multiply-subtract, double-precision (stub) (R563). -/
  | fnmsubD (rd : BitVec 5) (rs1 : BitVec 5) (rs2 : BitVec 5) (rs3 : BitVec 5) (rm : BitVec 3)
  /-- `fnmadd.d`: negated fused multiply-add, double-precision (stub) (R564). -/
  | fnmaddD (rd : BitVec 5) (rs1 : BitVec 5) (rs2 : BitVec 5) (rs3 : BitVec 5) (rm : BitVec 3)
  /-- `hfence.vvma`: hypervisor fence for guest virtual memory (stub) (R601). -/
  | hfenceVvma (rs1 : BitVec 5) (rs2 : BitVec 5)
  /-- `hfence.gvma`: hypervisor fence for guest physical memory (stub) (R602). -/
  | hfenceGvma (rs1 : BitVec 5) (rs2 : BitVec 5)
  /-- `hlv.b`: hypervisor virtual-machine load byte (stub) (R603). -/
  | hlvB (rd : BitVec 5) (rs1 : BitVec 5)
  /-- `hlv.bu`: hypervisor virtual-machine load byte, unsigned (stub) (R604). -/
  | hlvBu (rd : BitVec 5) (rs1 : BitVec 5)
  /-- `hlv.h`: hypervisor virtual-machine load halfword (stub) (R605). -/
  | hlvH (rd : BitVec 5) (rs1 : BitVec 5)
  /-- `hlv.hu`: hypervisor virtual-machine load halfword, unsigned (stub) (R606). -/
  | hlvHu (rd : BitVec 5) (rs1 : BitVec 5)
  /-- `hlvx.hu`: hypervisor virtual-machine load halfword for execute (stub) (R607). -/
  | hlvxHu (rd : BitVec 5) (rs1 : BitVec 5)
  /-- `hlv.w`: hypervisor virtual-machine load word (stub) (R608). -/
  | hlvW (rd : BitVec 5) (rs1 : BitVec 5)
  /-- `hlv.wu`: hypervisor virtual-machine load word, unsigned (stub) (R609). -/
  | hlvWu (rd : BitVec 5) (rs1 : BitVec 5)
  /-- `hlvx.wu`: hypervisor virtual-machine load word for execute (stub) (R610). -/
  | hlvxWu (rd : BitVec 5) (rs1 : BitVec 5)
  /-- `hlv.d`: hypervisor virtual-machine load doubleword (stub) (R611). -/
  | hlvD (rd : BitVec 5) (rs1 : BitVec 5)
  /-- `hsv.b`: hypervisor virtual-machine store byte (stub) (R612). -/
  | hsvB (rs1 : BitVec 5) (rs2 : BitVec 5)
  /-- `hsv.h`: hypervisor virtual-machine store halfword (stub) (R613). -/
  | hsvH (rs1 : BitVec 5) (rs2 : BitVec 5)
  /-- `hsv.w`: hypervisor virtual-machine store word (stub) (R614). -/
  | hsvW (rs1 : BitVec 5) (rs2 : BitVec 5)
  /-- `hsv.d`: hypervisor virtual-machine store doubleword (stub) (R615). -/
  | hsvD (rs1 : BitVec 5) (rs2 : BitVec 5)
  /-- `cbo.inval`: cache block invalidate (stub) (R616). -/
  | cboInval (rs1 : BitVec 5)
  /-- `cbo.clean`: cache block clean (stub) (R617). -/
  | cboClean (rs1 : BitVec 5)
  /-- `cbo.flush`: cache block flush (stub) (R618). -/
  | cboFlush (rs1 : BitVec 5)
  /-- `cbo.zero`: cache block zero (stub) (R619). -/
  | cboZero (rs1 : BitVec 5)
  /-- `vector-op`: vector arithmetic and configuration class (OP-V) (stub) (R620). -/
  | vectorOp
  /-- `vector-load-w8`: vector load class, element width 8 (stub) (R621). -/
  | vectorLoadW8
  /-- `vector-load-w16`: vector load class, element width 16 (stub) (R622). -/
  | vectorLoadW16
  /-- `vector-load-w32`: vector load class, element width 32 (stub) (R623). -/
  | vectorLoadW32
  /-- `vector-load-w64`: vector load class, element width 64 (stub) (R624). -/
  | vectorLoadW64
  /-- `vector-store-w8`: vector store class, element width 8 (stub) (R625). -/
  | vectorStoreW8
  /-- `vector-store-w16`: vector store class, element width 16 (stub) (R626). -/
  | vectorStoreW16
  /-- `vector-store-w32`: vector store class, element width 32 (stub) (R627). -/
  | vectorStoreW32
  /-- `vector-store-w64`: vector store class, element width 64 (stub) (R628). -/
  | vectorStoreW64
  deriving DecidableEq, Repr

end Sys2Proof
end

