-- ==== Sys2Proof/WellFormed.lean ====
section
/-! DEFINITION. Which instruction terms are encodings of the opcode table: an operand's bits that no segment covers are 0
(R183), and an operand is not one of its row's excluded values (R181, R184, R196). Every other width is in the types. -/

namespace Sys2Proof

/-- The lowest `n` bits of an operand value are 0: the bits no segment produces (R183). -/
def lowZeros {w : Nat} (n : Nat) (v : BitVec w) : Bool :=
  v &&& BitVec.ofNat w (2 ^ n - 1) == 0

/-- The instruction is one the registry can produce (R183, R184, R196). -/
def Instr.wellFormed : Instr → Bool
  | .lui _ imm => lowZeros 12 imm
  | .auipc _ imm => lowZeros 12 imm
  | .addi _ _ _ => true
  | .slti _ _ _ => true
  | .sltiu _ _ _ => true
  | .xori _ _ _ => true
  | .ori _ _ _ => true
  | .andi _ _ _ => true
  | .slli _ _ _ => true
  | .srli _ _ _ => true
  | .srai _ _ _ => true
  | .add _ _ _ => true
  | .sub _ _ _ => true
  | .sll _ _ _ => true
  | .slt _ _ _ => true
  | .sltu _ _ _ => true
  | .xor _ _ _ => true
  | .srl _ _ _ => true
  | .sra _ _ _ => true
  | .or _ _ _ => true
  | .and _ _ _ => true
  | .addiw _ _ _ => true
  | .slliw _ _ _ => true
  | .srliw _ _ _ => true
  | .sraiw _ _ _ => true
  | .addw _ _ _ => true
  | .subw _ _ _ => true
  | .sllw _ _ _ => true
  | .srlw _ _ _ => true
  | .sraw _ _ _ => true
  | .jal _ imm => lowZeros 1 imm
  | .jalr _ _ _ => true
  | .beq _ _ imm => lowZeros 1 imm
  | .bne _ _ imm => lowZeros 1 imm
  | .blt _ _ imm => lowZeros 1 imm
  | .bge _ _ imm => lowZeros 1 imm
  | .bltu _ _ imm => lowZeros 1 imm
  | .bgeu _ _ imm => lowZeros 1 imm
  | .lb _ _ _ => true
  | .lh _ _ _ => true
  | .lw _ _ _ => true
  | .ld _ _ _ => true
  | .lbu _ _ _ => true
  | .lhu _ _ _ => true
  | .lwu _ _ _ => true
  | .sb _ _ _ => true
  | .sh _ _ _ => true
  | .sw _ _ _ => true
  | .sd _ _ _ => true
  | .mul _ _ _ => true
  | .mulh _ _ _ => true
  | .mulhsu _ _ _ => true
  | .mulhu _ _ _ => true
  | .div _ _ _ => true
  | .divu _ _ _ => true
  | .rem _ _ _ => true
  | .remu _ _ _ => true
  | .mulw _ _ _ => true
  | .divw _ _ _ => true
  | .divuw _ _ _ => true
  | .remw _ _ _ => true
  | .remuw _ _ _ => true
  | .lrW _ _ _ _ => true
  | .scW _ _ _ _ _ => true
  | .amoswapW _ _ _ _ _ => true
  | .amoaddW _ _ _ _ _ => true
  | .amoxorW _ _ _ _ _ => true
  | .amoandW _ _ _ _ _ => true
  | .amoorW _ _ _ _ _ => true
  | .amominW _ _ _ _ _ => true
  | .amomaxW _ _ _ _ _ => true
  | .amominuW _ _ _ _ _ => true
  | .amomaxuW _ _ _ _ _ => true
  | .lrD _ _ _ _ => true
  | .scD _ _ _ _ _ => true
  | .amoswapD _ _ _ _ _ => true
  | .amoaddD _ _ _ _ _ => true
  | .amoxorD _ _ _ _ _ => true
  | .amoandD _ _ _ _ _ => true
  | .amoorD _ _ _ _ _ => true
  | .amominD _ _ _ _ _ => true
  | .amomaxD _ _ _ _ _ => true
  | .amominuD _ _ _ _ _ => true
  | .amomaxuD _ _ _ _ _ => true
  | .csrrw _ _ _ => true
  | .csrrs _ _ _ => true
  | .csrrc _ _ _ => true
  | .csrrwi _ _ _ => true
  | .csrrsi _ _ _ => true
  | .csrrci _ _ _ => true
  | .fence _ _ _ _ _ => true
  | .fenceI _ _ _ => true
  | .ecall => true
  | .ebreak => true
  | .sret => true
  | .mret => true
  | .wfi => true
  | .sfenceVma _ _ => true
  | .cAddi4spn _ imm => lowZeros 2 imm && imm != 0
  | .cFld _ _ imm => lowZeros 3 imm
  | .cLw _ _ imm => lowZeros 2 imm
  | .cLd _ _ imm => lowZeros 3 imm
  | .cFsd _ _ imm => lowZeros 3 imm
  | .cSw _ _ imm => lowZeros 2 imm
  | .cSd _ _ imm => lowZeros 3 imm
  | .cAddi _ _ => true
  | .cAddiw rd _ => rd != 0
  | .cLi _ _ => true
  | .cAddi16sp imm => lowZeros 4 imm && imm != 0
  | .cLui rd imm => rd != 2 && lowZeros 12 imm && imm != 0
  | .cSrli _ _ => true
  | .cSrai _ _ => true
  | .cAndi _ _ => true
  | .cSub _ _ => true
  | .cXor _ _ => true
  | .cOr _ _ => true
  | .cAnd _ _ => true
  | .cSubw _ _ => true
  | .cAddw _ _ => true
  | .cJ imm => lowZeros 1 imm
  | .cBeqz _ imm => lowZeros 1 imm
  | .cBnez _ imm => lowZeros 1 imm
  | .cSlli _ _ => true
  | .cFldsp _ imm => lowZeros 3 imm
  | .cLwsp rd imm => rd != 0 && lowZeros 2 imm
  | .cLdsp rd imm => rd != 0 && lowZeros 3 imm
  | .cJr rs1 => rs1 != 0
  | .cMv _ rs2 => rs2 != 0
  | .cEbreak => true
  | .cJalr rs1 => rs1 != 0
  | .cAdd _ rs2 => rs2 != 0
  | .cFsdsp _ imm => lowZeros 3 imm
  | .cSwsp _ imm => lowZeros 2 imm
  | .cSdsp _ imm => lowZeros 3 imm
  | .flw _ _ _ => true
  | .fld _ _ _ => true
  | .fsw _ _ _ => true
  | .fsd _ _ _ => true
  | .fmvXW _ _ => true
  | .fmvWX _ _ => true
  | .fmvXD _ _ => true
  | .fmvDX _ _ => true
  | .faddS _ _ _ _ => true
  | .fsubS _ _ _ _ => true
  | .fmulS _ _ _ _ => true
  | .fdivS _ _ _ _ => true
  | .fsqrtS _ _ _ => true
  | .fsgnjS _ _ _ => true
  | .fsgnjnS _ _ _ => true
  | .fsgnjxS _ _ _ => true
  | .fminS _ _ _ => true
  | .fmaxS _ _ _ => true
  | .feqS _ _ _ => true
  | .fltS _ _ _ => true
  | .fleS _ _ _ => true
  | .fclassS _ _ => true
  | .fcvtWS _ _ _ => true
  | .fcvtWuS _ _ _ => true
  | .fcvtLS _ _ _ => true
  | .fcvtLuS _ _ _ => true
  | .fcvtSW _ _ _ => true
  | .fcvtSWu _ _ _ => true
  | .fcvtSL _ _ _ => true
  | .fcvtSLu _ _ _ => true
  | .faddD _ _ _ _ => true
  | .fsubD _ _ _ _ => true
  | .fmulD _ _ _ _ => true
  | .fdivD _ _ _ _ => true
  | .fsqrtD _ _ _ => true
  | .fsgnjD _ _ _ => true
  | .fsgnjnD _ _ _ => true
  | .fsgnjxD _ _ _ => true
  | .fminD _ _ _ => true
  | .fmaxD _ _ _ => true
  | .feqD _ _ _ => true
  | .fltD _ _ _ => true
  | .fleD _ _ _ => true
  | .fclassD _ _ => true
  | .fcvtWD _ _ _ => true
  | .fcvtWuD _ _ _ => true
  | .fcvtLD _ _ _ => true
  | .fcvtLuD _ _ _ => true
  | .fcvtDW _ _ _ => true
  | .fcvtDWu _ _ _ => true
  | .fcvtDL _ _ _ => true
  | .fcvtDLu _ _ _ => true
  | .fcvtSD _ _ _ => true
  | .fcvtDS _ _ _ => true
  | .fmaddS _ _ _ _ _ => true
  | .fmsubS _ _ _ _ _ => true
  | .fnmsubS _ _ _ _ _ => true
  | .fnmaddS _ _ _ _ _ => true
  | .fmaddD _ _ _ _ _ => true
  | .fmsubD _ _ _ _ _ => true
  | .fnmsubD _ _ _ _ _ => true
  | .fnmaddD _ _ _ _ _ => true
  | .hfenceVvma _ _ => true
  | .hfenceGvma _ _ => true
  | .hlvB _ _ => true
  | .hlvBu _ _ => true
  | .hlvH _ _ => true
  | .hlvHu _ _ => true
  | .hlvxHu _ _ => true
  | .hlvW _ _ => true
  | .hlvWu _ _ => true
  | .hlvxWu _ _ => true
  | .hlvD _ _ => true
  | .hsvB _ _ => true
  | .hsvH _ _ => true
  | .hsvW _ _ => true
  | .hsvD _ _ => true
  | .cboInval _ => true
  | .cboClean _ => true
  | .cboFlush _ => true
  | .cboZero _ => true
  | .vectorOp => true
  | .vectorLoadW8 => true
  | .vectorLoadW16 => true
  | .vectorLoadW32 => true
  | .vectorLoadW64 => true
  | .vectorStoreW8 => true
  | .vectorStoreW16 => true
  | .vectorStoreW32 => true
  | .vectorStoreW64 => true

end Sys2Proof
end

