-- ==== Sys2Proof/Decode.lean ====
section
/-! DEFINITION. The instruction registry (R180 to R187): operand assembly, matching, the one-match rule, the default table,
what a table must be to be loaded, the decoder of any table and, after it, the encoder of the default one. The default table's
data is the opcode table of the spec, row by row. -/

namespace Sys2Proof

/-! ### Operand assembly (R183, R186) -/

/-- The word whose low `n` bits are 1. -/
def ones (n : Nat) : Insn := BitVec.ofNat 32 (2 ^ n - 1)

/-- How many bits a segment has. -/
def Segment.size (s : Segment) : Nat := s.hi + 1 - s.lo

/-- The segment's bits `word[hi:lo]`, shifted left by `shift` (R183). -/
def Segment.take (s : Segment) (word : Insn) : Insn := ((word >>> s.lo) &&& ones s.size) <<< s.shift

/-- `word` with `value[shift+hi-lo : shift]` written into `word[hi:lo]`, its other bits left alone (R186). -/
def Segment.put (s : Segment) (value word : Insn) : Insn :=
  (word &&& ~~~(ones s.size <<< s.lo)) ||| (((value >>> s.shift) &&& ones s.size) <<< s.lo)

/-- `Operand.decode(word)`: the OR of the segments (R183). -/
def Operand.decode (o : Operand) (word : Insn) : Insn :=
  o.segments.foldl (fun acc s => acc ||| s.take word) 0

/-- `encode(word, label, value)` for this operand (R186). -/
def Operand.encode (o : Operand) (value word : Insn) : Insn :=
  o.segments.foldl (fun w s => s.put value w) word

/-- The value is not one of the operand's excluded values (R181). -/
def Operand.admits (o : Operand) (value : Insn) : Bool := !o.exclusions.contains value.toNat

/-- The bits of an operand's value that its segments produce; the others are 0 (R183). -/
def Operand.cover (o : Operand) : Insn := o.segments.foldl (fun acc s => acc ||| (ones s.size <<< s.shift)) 0

/-! ### Matching (R184, R185) -/

/-- The operand values a definition reads from a word, in order (R183). -/
def Definition.operandValues (d : Definition) (word : Insn) : List Insn := d.operands.map fun o => o.decode word

/-- The operand a definition names with a label (R181). -/
def Definition.operand (d : Definition) (label : OperandLabel) : Option Operand :=
  d.operands.find? fun o => o.label == label

/-- The restriction admits the mode (R184): 0 means any. -/
def Definition.allows (d : Definition) (mode : Priv) : Bool := d.restriction == 0 || d.restriction == mode.code

/-- The fixed bits of the word are the definition's (R184). -/
def Definition.fixedMatch (d : Definition) (word : Insn) : Bool := word &&& d.mask == d.bits

/-- Definition `d` matches `(mode, word)`, among the definitions of the word's length (R184, R187). -/
def Definition.matchesWord (d : Definition) (mode : Priv) (len : Nat) (word : Insn) : Bool :=
  d.length == len && d.fixedMatch word && d.allows mode && d.operands.all fun o => o.admits (o.decode word)

/-- Why a word has no instruction. -/
inductive Reject where
  /-- No definition matches: IllegalInstruction (R185, R202). -/
  | noDefinition
  /-- More than one definition matches: a fatal configuration error (R185). -/
  | ambiguous
  /-- The bytes end before the instruction does. -/
  | truncated
  deriving DecidableEq, Repr

/-- `get(mode, word)`: the unique matching definition of a table (R185). -/
def Registry.get (table : List Definition) (mode : Priv) (len : Nat) (word : Insn) : Except Reject Definition :=
  match table.filter fun d => d.matchesWord mode len word with
  | [] => .error .noDefinition
  | [d] => .ok d
  | _ => .error .ambiguous

/-- A word's length in bytes, fixed by its lowest two bits (R187). -/
def wordLength (word : Insn) : Nat := if word &&& 3 == 3 then 4 else 2

/-! ### The default table (R180, `ISA_TABLE`) -/

/-- The row of the opcode table behind an identifier. -/
def row : Op → Definition
  | .lui => ⟨.lui, 4, 0x0000007F, 0x00000037, 0, [⟨.rd, [⟨11, 7, 0⟩], []⟩, ⟨.imm, [⟨31, 12, 12⟩], []⟩]⟩
  | .auipc => ⟨.auipc, 4, 0x0000007F, 0x00000017, 0, [⟨.rd, [⟨11, 7, 0⟩], []⟩, ⟨.imm, [⟨31, 12, 12⟩], []⟩]⟩
  | .addi => ⟨.addi, 4, 0x0000707F, 0x00000013, 0, [
      ⟨.rd, [⟨11, 7, 0⟩], []⟩, ⟨.rs1, [⟨19, 15, 0⟩], []⟩, ⟨.imm, [⟨31, 20, 0⟩], []⟩]⟩
  | .slti => ⟨.slti, 4, 0x0000707F, 0x00002013, 0, [
      ⟨.rd, [⟨11, 7, 0⟩], []⟩, ⟨.rs1, [⟨19, 15, 0⟩], []⟩, ⟨.imm, [⟨31, 20, 0⟩], []⟩]⟩
  | .sltiu => ⟨.sltiu, 4, 0x0000707F, 0x00003013, 0, [
      ⟨.rd, [⟨11, 7, 0⟩], []⟩, ⟨.rs1, [⟨19, 15, 0⟩], []⟩, ⟨.imm, [⟨31, 20, 0⟩], []⟩]⟩
  | .xori => ⟨.xori, 4, 0x0000707F, 0x00004013, 0, [
      ⟨.rd, [⟨11, 7, 0⟩], []⟩, ⟨.rs1, [⟨19, 15, 0⟩], []⟩, ⟨.imm, [⟨31, 20, 0⟩], []⟩]⟩
  | .ori => ⟨.ori, 4, 0x0000707F, 0x00006013, 0, [
      ⟨.rd, [⟨11, 7, 0⟩], []⟩, ⟨.rs1, [⟨19, 15, 0⟩], []⟩, ⟨.imm, [⟨31, 20, 0⟩], []⟩]⟩
  | .andi => ⟨.andi, 4, 0x0000707F, 0x00007013, 0, [
      ⟨.rd, [⟨11, 7, 0⟩], []⟩, ⟨.rs1, [⟨19, 15, 0⟩], []⟩, ⟨.imm, [⟨31, 20, 0⟩], []⟩]⟩
  | .slli => ⟨.slli, 4, 0xFC00707F, 0x00001013, 0, [
      ⟨.rd, [⟨11, 7, 0⟩], []⟩, ⟨.rs1, [⟨19, 15, 0⟩], []⟩, ⟨.shamt, [⟨25, 20, 0⟩], []⟩]⟩
  | .srli => ⟨.srli, 4, 0xFC00707F, 0x00005013, 0, [
      ⟨.rd, [⟨11, 7, 0⟩], []⟩, ⟨.rs1, [⟨19, 15, 0⟩], []⟩, ⟨.shamt, [⟨25, 20, 0⟩], []⟩]⟩
  | .srai => ⟨.srai, 4, 0xFC00707F, 0x40005013, 0, [
      ⟨.rd, [⟨11, 7, 0⟩], []⟩, ⟨.rs1, [⟨19, 15, 0⟩], []⟩, ⟨.shamt, [⟨25, 20, 0⟩], []⟩]⟩
  | .add => ⟨.add, 4, 0xFE00707F, 0x00000033, 0, [
      ⟨.rd, [⟨11, 7, 0⟩], []⟩, ⟨.rs1, [⟨19, 15, 0⟩], []⟩, ⟨.rs2, [⟨24, 20, 0⟩], []⟩]⟩
  | .sub => ⟨.sub, 4, 0xFE00707F, 0x40000033, 0, [
      ⟨.rd, [⟨11, 7, 0⟩], []⟩, ⟨.rs1, [⟨19, 15, 0⟩], []⟩, ⟨.rs2, [⟨24, 20, 0⟩], []⟩]⟩
  | .sll => ⟨.sll, 4, 0xFE00707F, 0x00001033, 0, [
      ⟨.rd, [⟨11, 7, 0⟩], []⟩, ⟨.rs1, [⟨19, 15, 0⟩], []⟩, ⟨.rs2, [⟨24, 20, 0⟩], []⟩]⟩
  | .slt => ⟨.slt, 4, 0xFE00707F, 0x00002033, 0, [
      ⟨.rd, [⟨11, 7, 0⟩], []⟩, ⟨.rs1, [⟨19, 15, 0⟩], []⟩, ⟨.rs2, [⟨24, 20, 0⟩], []⟩]⟩
  | .sltu => ⟨.sltu, 4, 0xFE00707F, 0x00003033, 0, [
      ⟨.rd, [⟨11, 7, 0⟩], []⟩, ⟨.rs1, [⟨19, 15, 0⟩], []⟩, ⟨.rs2, [⟨24, 20, 0⟩], []⟩]⟩
  | .xor => ⟨.xor, 4, 0xFE00707F, 0x00004033, 0, [
      ⟨.rd, [⟨11, 7, 0⟩], []⟩, ⟨.rs1, [⟨19, 15, 0⟩], []⟩, ⟨.rs2, [⟨24, 20, 0⟩], []⟩]⟩
  | .srl => ⟨.srl, 4, 0xFE00707F, 0x00005033, 0, [
      ⟨.rd, [⟨11, 7, 0⟩], []⟩, ⟨.rs1, [⟨19, 15, 0⟩], []⟩, ⟨.rs2, [⟨24, 20, 0⟩], []⟩]⟩
  | .sra => ⟨.sra, 4, 0xFE00707F, 0x40005033, 0, [
      ⟨.rd, [⟨11, 7, 0⟩], []⟩, ⟨.rs1, [⟨19, 15, 0⟩], []⟩, ⟨.rs2, [⟨24, 20, 0⟩], []⟩]⟩
  | .or => ⟨.or, 4, 0xFE00707F, 0x00006033, 0, [
      ⟨.rd, [⟨11, 7, 0⟩], []⟩, ⟨.rs1, [⟨19, 15, 0⟩], []⟩, ⟨.rs2, [⟨24, 20, 0⟩], []⟩]⟩
  | .and => ⟨.and, 4, 0xFE00707F, 0x00007033, 0, [
      ⟨.rd, [⟨11, 7, 0⟩], []⟩, ⟨.rs1, [⟨19, 15, 0⟩], []⟩, ⟨.rs2, [⟨24, 20, 0⟩], []⟩]⟩
  | .addiw => ⟨.addiw, 4, 0x0000707F, 0x0000001B, 0, [
      ⟨.rd, [⟨11, 7, 0⟩], []⟩, ⟨.rs1, [⟨19, 15, 0⟩], []⟩, ⟨.imm, [⟨31, 20, 0⟩], []⟩]⟩
  | .slliw => ⟨.slliw, 4, 0xFE00707F, 0x0000101B, 0, [
      ⟨.rd, [⟨11, 7, 0⟩], []⟩, ⟨.rs1, [⟨19, 15, 0⟩], []⟩, ⟨.shamt, [⟨24, 20, 0⟩], []⟩]⟩
  | .srliw => ⟨.srliw, 4, 0xFE00707F, 0x0000501B, 0, [
      ⟨.rd, [⟨11, 7, 0⟩], []⟩, ⟨.rs1, [⟨19, 15, 0⟩], []⟩, ⟨.shamt, [⟨24, 20, 0⟩], []⟩]⟩
  | .sraiw => ⟨.sraiw, 4, 0xFE00707F, 0x4000501B, 0, [
      ⟨.rd, [⟨11, 7, 0⟩], []⟩, ⟨.rs1, [⟨19, 15, 0⟩], []⟩, ⟨.shamt, [⟨24, 20, 0⟩], []⟩]⟩
  | .addw => ⟨.addw, 4, 0xFE00707F, 0x0000003B, 0, [
      ⟨.rd, [⟨11, 7, 0⟩], []⟩, ⟨.rs1, [⟨19, 15, 0⟩], []⟩, ⟨.rs2, [⟨24, 20, 0⟩], []⟩]⟩
  | .subw => ⟨.subw, 4, 0xFE00707F, 0x4000003B, 0, [
      ⟨.rd, [⟨11, 7, 0⟩], []⟩, ⟨.rs1, [⟨19, 15, 0⟩], []⟩, ⟨.rs2, [⟨24, 20, 0⟩], []⟩]⟩
  | .sllw => ⟨.sllw, 4, 0xFE00707F, 0x0000103B, 0, [
      ⟨.rd, [⟨11, 7, 0⟩], []⟩, ⟨.rs1, [⟨19, 15, 0⟩], []⟩, ⟨.rs2, [⟨24, 20, 0⟩], []⟩]⟩
  | .srlw => ⟨.srlw, 4, 0xFE00707F, 0x0000503B, 0, [
      ⟨.rd, [⟨11, 7, 0⟩], []⟩, ⟨.rs1, [⟨19, 15, 0⟩], []⟩, ⟨.rs2, [⟨24, 20, 0⟩], []⟩]⟩
  | .sraw => ⟨.sraw, 4, 0xFE00707F, 0x4000503B, 0, [
      ⟨.rd, [⟨11, 7, 0⟩], []⟩, ⟨.rs1, [⟨19, 15, 0⟩], []⟩, ⟨.rs2, [⟨24, 20, 0⟩], []⟩]⟩
  | .jal => ⟨.jal, 4, 0x0000007F, 0x0000006F, 0, [
      ⟨.rd, [⟨11, 7, 0⟩], []⟩, ⟨.imm, [⟨31, 31, 20⟩, ⟨19, 12, 12⟩, ⟨20, 20, 11⟩, ⟨30, 21, 1⟩], []⟩]⟩
  | .jalr => ⟨.jalr, 4, 0x0000707F, 0x00000067, 0, [
      ⟨.rd, [⟨11, 7, 0⟩], []⟩, ⟨.rs1, [⟨19, 15, 0⟩], []⟩, ⟨.imm, [⟨31, 20, 0⟩], []⟩]⟩
  | .beq => ⟨.beq, 4, 0x0000707F, 0x00000063, 0, [
      ⟨.rs1, [⟨19, 15, 0⟩], []⟩, ⟨.rs2, [⟨24, 20, 0⟩], []⟩, ⟨.imm, [⟨31, 31, 12⟩, ⟨7, 7, 11⟩, ⟨30, 25, 5⟩, ⟨11, 8, 1⟩], []⟩]⟩
  | .bne => ⟨.bne, 4, 0x0000707F, 0x00001063, 0, [
      ⟨.rs1, [⟨19, 15, 0⟩], []⟩, ⟨.rs2, [⟨24, 20, 0⟩], []⟩, ⟨.imm, [⟨31, 31, 12⟩, ⟨7, 7, 11⟩, ⟨30, 25, 5⟩, ⟨11, 8, 1⟩], []⟩]⟩
  | .blt => ⟨.blt, 4, 0x0000707F, 0x00004063, 0, [
      ⟨.rs1, [⟨19, 15, 0⟩], []⟩, ⟨.rs2, [⟨24, 20, 0⟩], []⟩, ⟨.imm, [⟨31, 31, 12⟩, ⟨7, 7, 11⟩, ⟨30, 25, 5⟩, ⟨11, 8, 1⟩], []⟩]⟩
  | .bge => ⟨.bge, 4, 0x0000707F, 0x00005063, 0, [
      ⟨.rs1, [⟨19, 15, 0⟩], []⟩, ⟨.rs2, [⟨24, 20, 0⟩], []⟩, ⟨.imm, [⟨31, 31, 12⟩, ⟨7, 7, 11⟩, ⟨30, 25, 5⟩, ⟨11, 8, 1⟩], []⟩]⟩
  | .bltu => ⟨.bltu, 4, 0x0000707F, 0x00006063, 0, [
      ⟨.rs1, [⟨19, 15, 0⟩], []⟩, ⟨.rs2, [⟨24, 20, 0⟩], []⟩, ⟨.imm, [⟨31, 31, 12⟩, ⟨7, 7, 11⟩, ⟨30, 25, 5⟩, ⟨11, 8, 1⟩], []⟩]⟩
  | .bgeu => ⟨.bgeu, 4, 0x0000707F, 0x00007063, 0, [
      ⟨.rs1, [⟨19, 15, 0⟩], []⟩, ⟨.rs2, [⟨24, 20, 0⟩], []⟩, ⟨.imm, [⟨31, 31, 12⟩, ⟨7, 7, 11⟩, ⟨30, 25, 5⟩, ⟨11, 8, 1⟩], []⟩]⟩
  | .lb => ⟨.lb, 4, 0x0000707F, 0x00000003, 0, [
      ⟨.rd, [⟨11, 7, 0⟩], []⟩, ⟨.rs1, [⟨19, 15, 0⟩], []⟩, ⟨.imm, [⟨31, 20, 0⟩], []⟩]⟩
  | .lh => ⟨.lh, 4, 0x0000707F, 0x00001003, 0, [
      ⟨.rd, [⟨11, 7, 0⟩], []⟩, ⟨.rs1, [⟨19, 15, 0⟩], []⟩, ⟨.imm, [⟨31, 20, 0⟩], []⟩]⟩
  | .lw => ⟨.lw, 4, 0x0000707F, 0x00002003, 0, [
      ⟨.rd, [⟨11, 7, 0⟩], []⟩, ⟨.rs1, [⟨19, 15, 0⟩], []⟩, ⟨.imm, [⟨31, 20, 0⟩], []⟩]⟩
  | .ld => ⟨.ld, 4, 0x0000707F, 0x00003003, 0, [
      ⟨.rd, [⟨11, 7, 0⟩], []⟩, ⟨.rs1, [⟨19, 15, 0⟩], []⟩, ⟨.imm, [⟨31, 20, 0⟩], []⟩]⟩
  | .lbu => ⟨.lbu, 4, 0x0000707F, 0x00004003, 0, [
      ⟨.rd, [⟨11, 7, 0⟩], []⟩, ⟨.rs1, [⟨19, 15, 0⟩], []⟩, ⟨.imm, [⟨31, 20, 0⟩], []⟩]⟩
  | .lhu => ⟨.lhu, 4, 0x0000707F, 0x00005003, 0, [
      ⟨.rd, [⟨11, 7, 0⟩], []⟩, ⟨.rs1, [⟨19, 15, 0⟩], []⟩, ⟨.imm, [⟨31, 20, 0⟩], []⟩]⟩
  | .lwu => ⟨.lwu, 4, 0x0000707F, 0x00006003, 0, [
      ⟨.rd, [⟨11, 7, 0⟩], []⟩, ⟨.rs1, [⟨19, 15, 0⟩], []⟩, ⟨.imm, [⟨31, 20, 0⟩], []⟩]⟩
  | .sb => ⟨.sb, 4, 0x0000707F, 0x00000023, 0, [
      ⟨.rs1, [⟨19, 15, 0⟩], []⟩, ⟨.rs2, [⟨24, 20, 0⟩], []⟩, ⟨.imm, [⟨31, 25, 5⟩, ⟨11, 7, 0⟩], []⟩]⟩
  | .sh => ⟨.sh, 4, 0x0000707F, 0x00001023, 0, [
      ⟨.rs1, [⟨19, 15, 0⟩], []⟩, ⟨.rs2, [⟨24, 20, 0⟩], []⟩, ⟨.imm, [⟨31, 25, 5⟩, ⟨11, 7, 0⟩], []⟩]⟩
  | .sw => ⟨.sw, 4, 0x0000707F, 0x00002023, 0, [
      ⟨.rs1, [⟨19, 15, 0⟩], []⟩, ⟨.rs2, [⟨24, 20, 0⟩], []⟩, ⟨.imm, [⟨31, 25, 5⟩, ⟨11, 7, 0⟩], []⟩]⟩
  | .sd => ⟨.sd, 4, 0x0000707F, 0x00003023, 0, [
      ⟨.rs1, [⟨19, 15, 0⟩], []⟩, ⟨.rs2, [⟨24, 20, 0⟩], []⟩, ⟨.imm, [⟨31, 25, 5⟩, ⟨11, 7, 0⟩], []⟩]⟩
  | .mul => ⟨.mul, 4, 0xFE00707F, 0x02000033, 0, [
      ⟨.rd, [⟨11, 7, 0⟩], []⟩, ⟨.rs1, [⟨19, 15, 0⟩], []⟩, ⟨.rs2, [⟨24, 20, 0⟩], []⟩]⟩
  | .mulh => ⟨.mulh, 4, 0xFE00707F, 0x02001033, 0, [
      ⟨.rd, [⟨11, 7, 0⟩], []⟩, ⟨.rs1, [⟨19, 15, 0⟩], []⟩, ⟨.rs2, [⟨24, 20, 0⟩], []⟩]⟩
  | .mulhsu => ⟨.mulhsu, 4, 0xFE00707F, 0x02002033, 0, [
      ⟨.rd, [⟨11, 7, 0⟩], []⟩, ⟨.rs1, [⟨19, 15, 0⟩], []⟩, ⟨.rs2, [⟨24, 20, 0⟩], []⟩]⟩
  | .mulhu => ⟨.mulhu, 4, 0xFE00707F, 0x02003033, 0, [
      ⟨.rd, [⟨11, 7, 0⟩], []⟩, ⟨.rs1, [⟨19, 15, 0⟩], []⟩, ⟨.rs2, [⟨24, 20, 0⟩], []⟩]⟩
  | .div => ⟨.div, 4, 0xFE00707F, 0x02004033, 0, [
      ⟨.rd, [⟨11, 7, 0⟩], []⟩, ⟨.rs1, [⟨19, 15, 0⟩], []⟩, ⟨.rs2, [⟨24, 20, 0⟩], []⟩]⟩
  | .divu => ⟨.divu, 4, 0xFE00707F, 0x02005033, 0, [
      ⟨.rd, [⟨11, 7, 0⟩], []⟩, ⟨.rs1, [⟨19, 15, 0⟩], []⟩, ⟨.rs2, [⟨24, 20, 0⟩], []⟩]⟩
  | .rem => ⟨.rem, 4, 0xFE00707F, 0x02006033, 0, [
      ⟨.rd, [⟨11, 7, 0⟩], []⟩, ⟨.rs1, [⟨19, 15, 0⟩], []⟩, ⟨.rs2, [⟨24, 20, 0⟩], []⟩]⟩
  | .remu => ⟨.remu, 4, 0xFE00707F, 0x02007033, 0, [
      ⟨.rd, [⟨11, 7, 0⟩], []⟩, ⟨.rs1, [⟨19, 15, 0⟩], []⟩, ⟨.rs2, [⟨24, 20, 0⟩], []⟩]⟩
  | .mulw => ⟨.mulw, 4, 0xFE00707F, 0x0200003B, 0, [
      ⟨.rd, [⟨11, 7, 0⟩], []⟩, ⟨.rs1, [⟨19, 15, 0⟩], []⟩, ⟨.rs2, [⟨24, 20, 0⟩], []⟩]⟩
  | .divw => ⟨.divw, 4, 0xFE00707F, 0x0200403B, 0, [
      ⟨.rd, [⟨11, 7, 0⟩], []⟩, ⟨.rs1, [⟨19, 15, 0⟩], []⟩, ⟨.rs2, [⟨24, 20, 0⟩], []⟩]⟩
  | .divuw => ⟨.divuw, 4, 0xFE00707F, 0x0200503B, 0, [
      ⟨.rd, [⟨11, 7, 0⟩], []⟩, ⟨.rs1, [⟨19, 15, 0⟩], []⟩, ⟨.rs2, [⟨24, 20, 0⟩], []⟩]⟩
  | .remw => ⟨.remw, 4, 0xFE00707F, 0x0200603B, 0, [
      ⟨.rd, [⟨11, 7, 0⟩], []⟩, ⟨.rs1, [⟨19, 15, 0⟩], []⟩, ⟨.rs2, [⟨24, 20, 0⟩], []⟩]⟩
  | .remuw => ⟨.remuw, 4, 0xFE00707F, 0x0200703B, 0, [
      ⟨.rd, [⟨11, 7, 0⟩], []⟩, ⟨.rs1, [⟨19, 15, 0⟩], []⟩, ⟨.rs2, [⟨24, 20, 0⟩], []⟩]⟩
  | .lrW => ⟨.lrW, 4, 0xF9F0707F, 0x1000202F, 0, [
      ⟨.rd, [⟨11, 7, 0⟩], []⟩, ⟨.rs1, [⟨19, 15, 0⟩], []⟩, ⟨.aq, [⟨26, 26, 0⟩], []⟩, ⟨.rl, [⟨25, 25, 0⟩], []⟩]⟩
  | .scW => ⟨.scW, 4, 0xF800707F, 0x1800202F, 0, [
      ⟨.rd, [⟨11, 7, 0⟩], []⟩,
      ⟨.rs1, [⟨19, 15, 0⟩], []⟩,
      ⟨.rs2, [⟨24, 20, 0⟩], []⟩,
      ⟨.aq, [⟨26, 26, 0⟩], []⟩,
      ⟨.rl, [⟨25, 25, 0⟩], []⟩]⟩
  | .amoswapW => ⟨.amoswapW, 4, 0xF800707F, 0x0800202F, 0, [
      ⟨.rd, [⟨11, 7, 0⟩], []⟩,
      ⟨.rs1, [⟨19, 15, 0⟩], []⟩,
      ⟨.rs2, [⟨24, 20, 0⟩], []⟩,
      ⟨.aq, [⟨26, 26, 0⟩], []⟩,
      ⟨.rl, [⟨25, 25, 0⟩], []⟩]⟩
  | .amoaddW => ⟨.amoaddW, 4, 0xF800707F, 0x0000202F, 0, [
      ⟨.rd, [⟨11, 7, 0⟩], []⟩,
      ⟨.rs1, [⟨19, 15, 0⟩], []⟩,
      ⟨.rs2, [⟨24, 20, 0⟩], []⟩,
      ⟨.aq, [⟨26, 26, 0⟩], []⟩,
      ⟨.rl, [⟨25, 25, 0⟩], []⟩]⟩
  | .amoxorW => ⟨.amoxorW, 4, 0xF800707F, 0x2000202F, 0, [
      ⟨.rd, [⟨11, 7, 0⟩], []⟩,
      ⟨.rs1, [⟨19, 15, 0⟩], []⟩,
      ⟨.rs2, [⟨24, 20, 0⟩], []⟩,
      ⟨.aq, [⟨26, 26, 0⟩], []⟩,
      ⟨.rl, [⟨25, 25, 0⟩], []⟩]⟩
  | .amoandW => ⟨.amoandW, 4, 0xF800707F, 0x6000202F, 0, [
      ⟨.rd, [⟨11, 7, 0⟩], []⟩,
      ⟨.rs1, [⟨19, 15, 0⟩], []⟩,
      ⟨.rs2, [⟨24, 20, 0⟩], []⟩,
      ⟨.aq, [⟨26, 26, 0⟩], []⟩,
      ⟨.rl, [⟨25, 25, 0⟩], []⟩]⟩
  | .amoorW => ⟨.amoorW, 4, 0xF800707F, 0x4000202F, 0, [
      ⟨.rd, [⟨11, 7, 0⟩], []⟩,
      ⟨.rs1, [⟨19, 15, 0⟩], []⟩,
      ⟨.rs2, [⟨24, 20, 0⟩], []⟩,
      ⟨.aq, [⟨26, 26, 0⟩], []⟩,
      ⟨.rl, [⟨25, 25, 0⟩], []⟩]⟩
  | .amominW => ⟨.amominW, 4, 0xF800707F, 0x8000202F, 0, [
      ⟨.rd, [⟨11, 7, 0⟩], []⟩,
      ⟨.rs1, [⟨19, 15, 0⟩], []⟩,
      ⟨.rs2, [⟨24, 20, 0⟩], []⟩,
      ⟨.aq, [⟨26, 26, 0⟩], []⟩,
      ⟨.rl, [⟨25, 25, 0⟩], []⟩]⟩
  | .amomaxW => ⟨.amomaxW, 4, 0xF800707F, 0xA000202F, 0, [
      ⟨.rd, [⟨11, 7, 0⟩], []⟩,
      ⟨.rs1, [⟨19, 15, 0⟩], []⟩,
      ⟨.rs2, [⟨24, 20, 0⟩], []⟩,
      ⟨.aq, [⟨26, 26, 0⟩], []⟩,
      ⟨.rl, [⟨25, 25, 0⟩], []⟩]⟩
  | .amominuW => ⟨.amominuW, 4, 0xF800707F, 0xC000202F, 0, [
      ⟨.rd, [⟨11, 7, 0⟩], []⟩,
      ⟨.rs1, [⟨19, 15, 0⟩], []⟩,
      ⟨.rs2, [⟨24, 20, 0⟩], []⟩,
      ⟨.aq, [⟨26, 26, 0⟩], []⟩,
      ⟨.rl, [⟨25, 25, 0⟩], []⟩]⟩
  | .amomaxuW => ⟨.amomaxuW, 4, 0xF800707F, 0xE000202F, 0, [
      ⟨.rd, [⟨11, 7, 0⟩], []⟩,
      ⟨.rs1, [⟨19, 15, 0⟩], []⟩,
      ⟨.rs2, [⟨24, 20, 0⟩], []⟩,
      ⟨.aq, [⟨26, 26, 0⟩], []⟩,
      ⟨.rl, [⟨25, 25, 0⟩], []⟩]⟩
  | .lrD => ⟨.lrD, 4, 0xF9F0707F, 0x1000302F, 0, [
      ⟨.rd, [⟨11, 7, 0⟩], []⟩, ⟨.rs1, [⟨19, 15, 0⟩], []⟩, ⟨.aq, [⟨26, 26, 0⟩], []⟩, ⟨.rl, [⟨25, 25, 0⟩], []⟩]⟩
  | .scD => ⟨.scD, 4, 0xF800707F, 0x1800302F, 0, [
      ⟨.rd, [⟨11, 7, 0⟩], []⟩,
      ⟨.rs1, [⟨19, 15, 0⟩], []⟩,
      ⟨.rs2, [⟨24, 20, 0⟩], []⟩,
      ⟨.aq, [⟨26, 26, 0⟩], []⟩,
      ⟨.rl, [⟨25, 25, 0⟩], []⟩]⟩
  | .amoswapD => ⟨.amoswapD, 4, 0xF800707F, 0x0800302F, 0, [
      ⟨.rd, [⟨11, 7, 0⟩], []⟩,
      ⟨.rs1, [⟨19, 15, 0⟩], []⟩,
      ⟨.rs2, [⟨24, 20, 0⟩], []⟩,
      ⟨.aq, [⟨26, 26, 0⟩], []⟩,
      ⟨.rl, [⟨25, 25, 0⟩], []⟩]⟩
  | .amoaddD => ⟨.amoaddD, 4, 0xF800707F, 0x0000302F, 0, [
      ⟨.rd, [⟨11, 7, 0⟩], []⟩,
      ⟨.rs1, [⟨19, 15, 0⟩], []⟩,
      ⟨.rs2, [⟨24, 20, 0⟩], []⟩,
      ⟨.aq, [⟨26, 26, 0⟩], []⟩,
      ⟨.rl, [⟨25, 25, 0⟩], []⟩]⟩
  | .amoxorD => ⟨.amoxorD, 4, 0xF800707F, 0x2000302F, 0, [
      ⟨.rd, [⟨11, 7, 0⟩], []⟩,
      ⟨.rs1, [⟨19, 15, 0⟩], []⟩,
      ⟨.rs2, [⟨24, 20, 0⟩], []⟩,
      ⟨.aq, [⟨26, 26, 0⟩], []⟩,
      ⟨.rl, [⟨25, 25, 0⟩], []⟩]⟩
  | .amoandD => ⟨.amoandD, 4, 0xF800707F, 0x6000302F, 0, [
      ⟨.rd, [⟨11, 7, 0⟩], []⟩,
      ⟨.rs1, [⟨19, 15, 0⟩], []⟩,
      ⟨.rs2, [⟨24, 20, 0⟩], []⟩,
      ⟨.aq, [⟨26, 26, 0⟩], []⟩,
      ⟨.rl, [⟨25, 25, 0⟩], []⟩]⟩
  | .amoorD => ⟨.amoorD, 4, 0xF800707F, 0x4000302F, 0, [
      ⟨.rd, [⟨11, 7, 0⟩], []⟩,
      ⟨.rs1, [⟨19, 15, 0⟩], []⟩,
      ⟨.rs2, [⟨24, 20, 0⟩], []⟩,
      ⟨.aq, [⟨26, 26, 0⟩], []⟩,
      ⟨.rl, [⟨25, 25, 0⟩], []⟩]⟩
  | .amominD => ⟨.amominD, 4, 0xF800707F, 0x8000302F, 0, [
      ⟨.rd, [⟨11, 7, 0⟩], []⟩,
      ⟨.rs1, [⟨19, 15, 0⟩], []⟩,
      ⟨.rs2, [⟨24, 20, 0⟩], []⟩,
      ⟨.aq, [⟨26, 26, 0⟩], []⟩,
      ⟨.rl, [⟨25, 25, 0⟩], []⟩]⟩
  | .amomaxD => ⟨.amomaxD, 4, 0xF800707F, 0xA000302F, 0, [
      ⟨.rd, [⟨11, 7, 0⟩], []⟩,
      ⟨.rs1, [⟨19, 15, 0⟩], []⟩,
      ⟨.rs2, [⟨24, 20, 0⟩], []⟩,
      ⟨.aq, [⟨26, 26, 0⟩], []⟩,
      ⟨.rl, [⟨25, 25, 0⟩], []⟩]⟩
  | .amominuD => ⟨.amominuD, 4, 0xF800707F, 0xC000302F, 0, [
      ⟨.rd, [⟨11, 7, 0⟩], []⟩,
      ⟨.rs1, [⟨19, 15, 0⟩], []⟩,
      ⟨.rs2, [⟨24, 20, 0⟩], []⟩,
      ⟨.aq, [⟨26, 26, 0⟩], []⟩,
      ⟨.rl, [⟨25, 25, 0⟩], []⟩]⟩
  | .amomaxuD => ⟨.amomaxuD, 4, 0xF800707F, 0xE000302F, 0, [
      ⟨.rd, [⟨11, 7, 0⟩], []⟩,
      ⟨.rs1, [⟨19, 15, 0⟩], []⟩,
      ⟨.rs2, [⟨24, 20, 0⟩], []⟩,
      ⟨.aq, [⟨26, 26, 0⟩], []⟩,
      ⟨.rl, [⟨25, 25, 0⟩], []⟩]⟩
  | .csrrw => ⟨.csrrw, 4, 0x0000707F, 0x00001073, 0, [
      ⟨.rd, [⟨11, 7, 0⟩], []⟩, ⟨.rs1, [⟨19, 15, 0⟩], []⟩, ⟨.csr, [⟨31, 20, 0⟩], []⟩]⟩
  | .csrrs => ⟨.csrrs, 4, 0x0000707F, 0x00002073, 0, [
      ⟨.rd, [⟨11, 7, 0⟩], []⟩, ⟨.rs1, [⟨19, 15, 0⟩], []⟩, ⟨.csr, [⟨31, 20, 0⟩], []⟩]⟩
  | .csrrc => ⟨.csrrc, 4, 0x0000707F, 0x00003073, 0, [
      ⟨.rd, [⟨11, 7, 0⟩], []⟩, ⟨.rs1, [⟨19, 15, 0⟩], []⟩, ⟨.csr, [⟨31, 20, 0⟩], []⟩]⟩
  | .csrrwi => ⟨.csrrwi, 4, 0x0000707F, 0x00005073, 0, [
      ⟨.rd, [⟨11, 7, 0⟩], []⟩, ⟨.uimm, [⟨19, 15, 0⟩], []⟩, ⟨.csr, [⟨31, 20, 0⟩], []⟩]⟩
  | .csrrsi => ⟨.csrrsi, 4, 0x0000707F, 0x00006073, 0, [
      ⟨.rd, [⟨11, 7, 0⟩], []⟩, ⟨.uimm, [⟨19, 15, 0⟩], []⟩, ⟨.csr, [⟨31, 20, 0⟩], []⟩]⟩
  | .csrrci => ⟨.csrrci, 4, 0x0000707F, 0x00007073, 0, [
      ⟨.rd, [⟨11, 7, 0⟩], []⟩, ⟨.uimm, [⟨19, 15, 0⟩], []⟩, ⟨.csr, [⟨31, 20, 0⟩], []⟩]⟩
  | .fence => ⟨.fence, 4, 0x0000707F, 0x0000000F, 0, [
      ⟨.fm, [⟨31, 28, 0⟩], []⟩,
      ⟨.pred, [⟨27, 24, 0⟩], []⟩,
      ⟨.succ, [⟨23, 20, 0⟩], []⟩,
      ⟨.rs1, [⟨19, 15, 0⟩], []⟩,
      ⟨.rd, [⟨11, 7, 0⟩], []⟩]⟩
  | .fenceI => ⟨.fenceI, 4, 0x0000707F, 0x0000100F, 0, [
      ⟨.imm, [⟨31, 20, 0⟩], []⟩, ⟨.rs1, [⟨19, 15, 0⟩], []⟩, ⟨.rd, [⟨11, 7, 0⟩], []⟩]⟩
  | .ecall => ⟨.ecall, 4, 0xFFFFFFFF, 0x00000073, 0, []⟩
  | .ebreak => ⟨.ebreak, 4, 0xFFFFFFFF, 0x00100073, 0, []⟩
  | .sret => ⟨.sret, 4, 0xFFFFFFFF, 0x10200073, 0, []⟩
  | .mret => ⟨.mret, 4, 0xFFFFFFFF, 0x30200073, 3, []⟩
  | .wfi => ⟨.wfi, 4, 0xFFFFFFFF, 0x10500073, 0, []⟩
  | .sfenceVma => ⟨.sfenceVma, 4, 0xFE007FFF, 0x12000073, 0, [⟨.rs1, [⟨19, 15, 0⟩], []⟩, ⟨.rs2, [⟨24, 20, 0⟩], []⟩]⟩
  | .cAddi4spn => ⟨.cAddi4spn, 2, 0xE003, 0x0000, 0, [
      ⟨.rdP, [⟨4, 2, 0⟩], []⟩, ⟨.imm, [⟨12, 11, 4⟩, ⟨10, 7, 6⟩, ⟨6, 6, 2⟩, ⟨5, 5, 3⟩], [0]⟩]⟩
  | .cFld => ⟨.cFld, 2, 0xE003, 0x2000, 0, [
      ⟨.rdP, [⟨4, 2, 0⟩], []⟩, ⟨.rs1P, [⟨9, 7, 0⟩], []⟩, ⟨.imm, [⟨12, 10, 3⟩, ⟨6, 5, 6⟩], []⟩]⟩
  | .cLw => ⟨.cLw, 2, 0xE003, 0x4000, 0, [
      ⟨.rdP, [⟨4, 2, 0⟩], []⟩, ⟨.rs1P, [⟨9, 7, 0⟩], []⟩, ⟨.imm, [⟨12, 10, 3⟩, ⟨6, 6, 2⟩, ⟨5, 5, 6⟩], []⟩]⟩
  | .cLd => ⟨.cLd, 2, 0xE003, 0x6000, 0, [
      ⟨.rdP, [⟨4, 2, 0⟩], []⟩, ⟨.rs1P, [⟨9, 7, 0⟩], []⟩, ⟨.imm, [⟨12, 10, 3⟩, ⟨6, 5, 6⟩], []⟩]⟩
  | .cFsd => ⟨.cFsd, 2, 0xE003, 0xA000, 0, [
      ⟨.rs2P, [⟨4, 2, 0⟩], []⟩, ⟨.rs1P, [⟨9, 7, 0⟩], []⟩, ⟨.imm, [⟨12, 10, 3⟩, ⟨6, 5, 6⟩], []⟩]⟩
  | .cSw => ⟨.cSw, 2, 0xE003, 0xC000, 0, [
      ⟨.rs2P, [⟨4, 2, 0⟩], []⟩, ⟨.rs1P, [⟨9, 7, 0⟩], []⟩, ⟨.imm, [⟨12, 10, 3⟩, ⟨6, 6, 2⟩, ⟨5, 5, 6⟩], []⟩]⟩
  | .cSd => ⟨.cSd, 2, 0xE003, 0xE000, 0, [
      ⟨.rs2P, [⟨4, 2, 0⟩], []⟩, ⟨.rs1P, [⟨9, 7, 0⟩], []⟩, ⟨.imm, [⟨12, 10, 3⟩, ⟨6, 5, 6⟩], []⟩]⟩
  | .cAddi => ⟨.cAddi, 2, 0xE003, 0x0001, 0, [⟨.rd, [⟨11, 7, 0⟩], []⟩, ⟨.imm, [⟨12, 12, 5⟩, ⟨6, 2, 0⟩], []⟩]⟩
  | .cAddiw => ⟨.cAddiw, 2, 0xE003, 0x2001, 0, [⟨.rd, [⟨11, 7, 0⟩], [0]⟩, ⟨.imm, [⟨12, 12, 5⟩, ⟨6, 2, 0⟩], []⟩]⟩
  | .cLi => ⟨.cLi, 2, 0xE003, 0x4001, 0, [⟨.rd, [⟨11, 7, 0⟩], []⟩, ⟨.imm, [⟨12, 12, 5⟩, ⟨6, 2, 0⟩], []⟩]⟩
  | .cAddi16sp => ⟨.cAddi16sp, 2, 0xEF83, 0x6101, 0, [
      ⟨.imm, [⟨12, 12, 9⟩, ⟨6, 6, 4⟩, ⟨5, 5, 6⟩, ⟨4, 3, 7⟩, ⟨2, 2, 5⟩], [0]⟩]⟩
  | .cLui => ⟨.cLui, 2, 0xE003, 0x6001, 0, [⟨.rd, [⟨11, 7, 0⟩], [2]⟩, ⟨.imm, [⟨12, 12, 17⟩, ⟨6, 2, 12⟩], [0]⟩]⟩
  | .cSrli => ⟨.cSrli, 2, 0xEC03, 0x8001, 0, [⟨.rdP, [⟨9, 7, 0⟩], []⟩, ⟨.shamt, [⟨12, 12, 5⟩, ⟨6, 2, 0⟩], []⟩]⟩
  | .cSrai => ⟨.cSrai, 2, 0xEC03, 0x8401, 0, [⟨.rdP, [⟨9, 7, 0⟩], []⟩, ⟨.shamt, [⟨12, 12, 5⟩, ⟨6, 2, 0⟩], []⟩]⟩
  | .cAndi => ⟨.cAndi, 2, 0xEC03, 0x8801, 0, [⟨.rdP, [⟨9, 7, 0⟩], []⟩, ⟨.imm, [⟨12, 12, 5⟩, ⟨6, 2, 0⟩], []⟩]⟩
  | .cSub => ⟨.cSub, 2, 0xFC63, 0x8C01, 0, [⟨.rdP, [⟨9, 7, 0⟩], []⟩, ⟨.rs2P, [⟨4, 2, 0⟩], []⟩]⟩
  | .cXor => ⟨.cXor, 2, 0xFC63, 0x8C21, 0, [⟨.rdP, [⟨9, 7, 0⟩], []⟩, ⟨.rs2P, [⟨4, 2, 0⟩], []⟩]⟩
  | .cOr => ⟨.cOr, 2, 0xFC63, 0x8C41, 0, [⟨.rdP, [⟨9, 7, 0⟩], []⟩, ⟨.rs2P, [⟨4, 2, 0⟩], []⟩]⟩
  | .cAnd => ⟨.cAnd, 2, 0xFC63, 0x8C61, 0, [⟨.rdP, [⟨9, 7, 0⟩], []⟩, ⟨.rs2P, [⟨4, 2, 0⟩], []⟩]⟩
  | .cSubw => ⟨.cSubw, 2, 0xFC63, 0x9C01, 0, [⟨.rdP, [⟨9, 7, 0⟩], []⟩, ⟨.rs2P, [⟨4, 2, 0⟩], []⟩]⟩
  | .cAddw => ⟨.cAddw, 2, 0xFC63, 0x9C21, 0, [⟨.rdP, [⟨9, 7, 0⟩], []⟩, ⟨.rs2P, [⟨4, 2, 0⟩], []⟩]⟩
  | .cJ => ⟨.cJ, 2, 0xE003, 0xA001, 0, [
      ⟨.imm, [⟨12, 12, 11⟩, ⟨11, 11, 4⟩, ⟨10, 9, 8⟩, ⟨8, 8, 10⟩, ⟨7, 7, 6⟩, ⟨6, 6, 7⟩, ⟨5, 3, 1⟩, ⟨2, 2, 5⟩], []⟩]⟩
  | .cBeqz => ⟨.cBeqz, 2, 0xE003, 0xC001, 0, [
      ⟨.rs1P, [⟨9, 7, 0⟩], []⟩, ⟨.imm, [⟨12, 12, 8⟩, ⟨11, 10, 3⟩, ⟨6, 5, 6⟩, ⟨4, 3, 1⟩, ⟨2, 2, 5⟩], []⟩]⟩
  | .cBnez => ⟨.cBnez, 2, 0xE003, 0xE001, 0, [
      ⟨.rs1P, [⟨9, 7, 0⟩], []⟩, ⟨.imm, [⟨12, 12, 8⟩, ⟨11, 10, 3⟩, ⟨6, 5, 6⟩, ⟨4, 3, 1⟩, ⟨2, 2, 5⟩], []⟩]⟩
  | .cSlli => ⟨.cSlli, 2, 0xE003, 0x0002, 0, [⟨.rd, [⟨11, 7, 0⟩], []⟩, ⟨.shamt, [⟨12, 12, 5⟩, ⟨6, 2, 0⟩], []⟩]⟩
  | .cFldsp => ⟨.cFldsp, 2, 0xE003, 0x2002, 0, [
      ⟨.rd, [⟨11, 7, 0⟩], []⟩, ⟨.imm, [⟨12, 12, 5⟩, ⟨6, 5, 3⟩, ⟨4, 2, 6⟩], []⟩]⟩
  | .cLwsp => ⟨.cLwsp, 2, 0xE003, 0x4002, 0, [
      ⟨.rd, [⟨11, 7, 0⟩], [0]⟩, ⟨.imm, [⟨12, 12, 5⟩, ⟨6, 4, 2⟩, ⟨3, 2, 6⟩], []⟩]⟩
  | .cLdsp => ⟨.cLdsp, 2, 0xE003, 0x6002, 0, [
      ⟨.rd, [⟨11, 7, 0⟩], [0]⟩, ⟨.imm, [⟨12, 12, 5⟩, ⟨6, 5, 3⟩, ⟨4, 2, 6⟩], []⟩]⟩
  | .cJr => ⟨.cJr, 2, 0xF07F, 0x8002, 0, [⟨.rs1, [⟨11, 7, 0⟩], [0]⟩]⟩
  | .cMv => ⟨.cMv, 2, 0xF003, 0x8002, 0, [⟨.rd, [⟨11, 7, 0⟩], []⟩, ⟨.rs2, [⟨6, 2, 0⟩], [0]⟩]⟩
  | .cEbreak => ⟨.cEbreak, 2, 0xFFFF, 0x9002, 0, []⟩
  | .cJalr => ⟨.cJalr, 2, 0xF07F, 0x9002, 0, [⟨.rs1, [⟨11, 7, 0⟩], [0]⟩]⟩
  | .cAdd => ⟨.cAdd, 2, 0xF003, 0x9002, 0, [⟨.rd, [⟨11, 7, 0⟩], []⟩, ⟨.rs2, [⟨6, 2, 0⟩], [0]⟩]⟩
  | .cFsdsp => ⟨.cFsdsp, 2, 0xE003, 0xA002, 0, [⟨.rs2, [⟨6, 2, 0⟩], []⟩, ⟨.imm, [⟨12, 10, 3⟩, ⟨9, 7, 6⟩], []⟩]⟩
  | .cSwsp => ⟨.cSwsp, 2, 0xE003, 0xC002, 0, [⟨.rs2, [⟨6, 2, 0⟩], []⟩, ⟨.imm, [⟨12, 9, 2⟩, ⟨8, 7, 6⟩], []⟩]⟩
  | .cSdsp => ⟨.cSdsp, 2, 0xE003, 0xE002, 0, [⟨.rs2, [⟨6, 2, 0⟩], []⟩, ⟨.imm, [⟨12, 10, 3⟩, ⟨9, 7, 6⟩], []⟩]⟩
  | .flw => ⟨.flw, 4, 0x0000707F, 0x00002007, 0, [
      ⟨.rd, [⟨11, 7, 0⟩], []⟩, ⟨.rs1, [⟨19, 15, 0⟩], []⟩, ⟨.imm, [⟨31, 20, 0⟩], []⟩]⟩
  | .fld => ⟨.fld, 4, 0x0000707F, 0x00003007, 0, [
      ⟨.rd, [⟨11, 7, 0⟩], []⟩, ⟨.rs1, [⟨19, 15, 0⟩], []⟩, ⟨.imm, [⟨31, 20, 0⟩], []⟩]⟩
  | .fsw => ⟨.fsw, 4, 0x0000707F, 0x00002027, 0, [
      ⟨.rs1, [⟨19, 15, 0⟩], []⟩, ⟨.rs2, [⟨24, 20, 0⟩], []⟩, ⟨.imm, [⟨31, 25, 5⟩, ⟨11, 7, 0⟩], []⟩]⟩
  | .fsd => ⟨.fsd, 4, 0x0000707F, 0x00003027, 0, [
      ⟨.rs1, [⟨19, 15, 0⟩], []⟩, ⟨.rs2, [⟨24, 20, 0⟩], []⟩, ⟨.imm, [⟨31, 25, 5⟩, ⟨11, 7, 0⟩], []⟩]⟩
  | .fmvXW => ⟨.fmvXW, 4, 0xFFF0707F, 0xE0000053, 0, [⟨.rd, [⟨11, 7, 0⟩], []⟩, ⟨.rs1, [⟨19, 15, 0⟩], []⟩]⟩
  | .fmvWX => ⟨.fmvWX, 4, 0xFFF0707F, 0xF0000053, 0, [⟨.rd, [⟨11, 7, 0⟩], []⟩, ⟨.rs1, [⟨19, 15, 0⟩], []⟩]⟩
  | .fmvXD => ⟨.fmvXD, 4, 0xFFF0707F, 0xE2000053, 0, [⟨.rd, [⟨11, 7, 0⟩], []⟩, ⟨.rs1, [⟨19, 15, 0⟩], []⟩]⟩
  | .fmvDX => ⟨.fmvDX, 4, 0xFFF0707F, 0xF2000053, 0, [⟨.rd, [⟨11, 7, 0⟩], []⟩, ⟨.rs1, [⟨19, 15, 0⟩], []⟩]⟩
  | .faddS => ⟨.faddS, 4, 0xFE00007F, 0x00000053, 0, [
      ⟨.rd, [⟨11, 7, 0⟩], []⟩, ⟨.rs1, [⟨19, 15, 0⟩], []⟩, ⟨.rs2, [⟨24, 20, 0⟩], []⟩, ⟨.rm, [⟨14, 12, 0⟩], []⟩]⟩
  | .fsubS => ⟨.fsubS, 4, 0xFE00007F, 0x08000053, 0, [
      ⟨.rd, [⟨11, 7, 0⟩], []⟩, ⟨.rs1, [⟨19, 15, 0⟩], []⟩, ⟨.rs2, [⟨24, 20, 0⟩], []⟩, ⟨.rm, [⟨14, 12, 0⟩], []⟩]⟩
  | .fmulS => ⟨.fmulS, 4, 0xFE00007F, 0x10000053, 0, [
      ⟨.rd, [⟨11, 7, 0⟩], []⟩, ⟨.rs1, [⟨19, 15, 0⟩], []⟩, ⟨.rs2, [⟨24, 20, 0⟩], []⟩, ⟨.rm, [⟨14, 12, 0⟩], []⟩]⟩
  | .fdivS => ⟨.fdivS, 4, 0xFE00007F, 0x18000053, 0, [
      ⟨.rd, [⟨11, 7, 0⟩], []⟩, ⟨.rs1, [⟨19, 15, 0⟩], []⟩, ⟨.rs2, [⟨24, 20, 0⟩], []⟩, ⟨.rm, [⟨14, 12, 0⟩], []⟩]⟩
  | .fsqrtS => ⟨.fsqrtS, 4, 0xFFF0007F, 0x58000053, 0, [
      ⟨.rd, [⟨11, 7, 0⟩], []⟩, ⟨.rs1, [⟨19, 15, 0⟩], []⟩, ⟨.rm, [⟨14, 12, 0⟩], []⟩]⟩
  | .fsgnjS => ⟨.fsgnjS, 4, 0xFE00707F, 0x20000053, 0, [
      ⟨.rd, [⟨11, 7, 0⟩], []⟩, ⟨.rs1, [⟨19, 15, 0⟩], []⟩, ⟨.rs2, [⟨24, 20, 0⟩], []⟩]⟩
  | .fsgnjnS => ⟨.fsgnjnS, 4, 0xFE00707F, 0x20001053, 0, [
      ⟨.rd, [⟨11, 7, 0⟩], []⟩, ⟨.rs1, [⟨19, 15, 0⟩], []⟩, ⟨.rs2, [⟨24, 20, 0⟩], []⟩]⟩
  | .fsgnjxS => ⟨.fsgnjxS, 4, 0xFE00707F, 0x20002053, 0, [
      ⟨.rd, [⟨11, 7, 0⟩], []⟩, ⟨.rs1, [⟨19, 15, 0⟩], []⟩, ⟨.rs2, [⟨24, 20, 0⟩], []⟩]⟩
  | .fminS => ⟨.fminS, 4, 0xFE00707F, 0x28000053, 0, [
      ⟨.rd, [⟨11, 7, 0⟩], []⟩, ⟨.rs1, [⟨19, 15, 0⟩], []⟩, ⟨.rs2, [⟨24, 20, 0⟩], []⟩]⟩
  | .fmaxS => ⟨.fmaxS, 4, 0xFE00707F, 0x28001053, 0, [
      ⟨.rd, [⟨11, 7, 0⟩], []⟩, ⟨.rs1, [⟨19, 15, 0⟩], []⟩, ⟨.rs2, [⟨24, 20, 0⟩], []⟩]⟩
  | .feqS => ⟨.feqS, 4, 0xFE00707F, 0xA0002053, 0, [
      ⟨.rd, [⟨11, 7, 0⟩], []⟩, ⟨.rs1, [⟨19, 15, 0⟩], []⟩, ⟨.rs2, [⟨24, 20, 0⟩], []⟩]⟩
  | .fltS => ⟨.fltS, 4, 0xFE00707F, 0xA0001053, 0, [
      ⟨.rd, [⟨11, 7, 0⟩], []⟩, ⟨.rs1, [⟨19, 15, 0⟩], []⟩, ⟨.rs2, [⟨24, 20, 0⟩], []⟩]⟩
  | .fleS => ⟨.fleS, 4, 0xFE00707F, 0xA0000053, 0, [
      ⟨.rd, [⟨11, 7, 0⟩], []⟩, ⟨.rs1, [⟨19, 15, 0⟩], []⟩, ⟨.rs2, [⟨24, 20, 0⟩], []⟩]⟩
  | .fclassS => ⟨.fclassS, 4, 0xFFF0707F, 0xE0001053, 0, [⟨.rd, [⟨11, 7, 0⟩], []⟩, ⟨.rs1, [⟨19, 15, 0⟩], []⟩]⟩
  | .fcvtWS => ⟨.fcvtWS, 4, 0xFFF0007F, 0xC0000053, 0, [
      ⟨.rd, [⟨11, 7, 0⟩], []⟩, ⟨.rs1, [⟨19, 15, 0⟩], []⟩, ⟨.rm, [⟨14, 12, 0⟩], []⟩]⟩
  | .fcvtWuS => ⟨.fcvtWuS, 4, 0xFFF0007F, 0xC0100053, 0, [
      ⟨.rd, [⟨11, 7, 0⟩], []⟩, ⟨.rs1, [⟨19, 15, 0⟩], []⟩, ⟨.rm, [⟨14, 12, 0⟩], []⟩]⟩
  | .fcvtLS => ⟨.fcvtLS, 4, 0xFFF0007F, 0xC0200053, 0, [
      ⟨.rd, [⟨11, 7, 0⟩], []⟩, ⟨.rs1, [⟨19, 15, 0⟩], []⟩, ⟨.rm, [⟨14, 12, 0⟩], []⟩]⟩
  | .fcvtLuS => ⟨.fcvtLuS, 4, 0xFFF0007F, 0xC0300053, 0, [
      ⟨.rd, [⟨11, 7, 0⟩], []⟩, ⟨.rs1, [⟨19, 15, 0⟩], []⟩, ⟨.rm, [⟨14, 12, 0⟩], []⟩]⟩
  | .fcvtSW => ⟨.fcvtSW, 4, 0xFFF0007F, 0xD0000053, 0, [
      ⟨.rd, [⟨11, 7, 0⟩], []⟩, ⟨.rs1, [⟨19, 15, 0⟩], []⟩, ⟨.rm, [⟨14, 12, 0⟩], []⟩]⟩
  | .fcvtSWu => ⟨.fcvtSWu, 4, 0xFFF0007F, 0xD0100053, 0, [
      ⟨.rd, [⟨11, 7, 0⟩], []⟩, ⟨.rs1, [⟨19, 15, 0⟩], []⟩, ⟨.rm, [⟨14, 12, 0⟩], []⟩]⟩
  | .fcvtSL => ⟨.fcvtSL, 4, 0xFFF0007F, 0xD0200053, 0, [
      ⟨.rd, [⟨11, 7, 0⟩], []⟩, ⟨.rs1, [⟨19, 15, 0⟩], []⟩, ⟨.rm, [⟨14, 12, 0⟩], []⟩]⟩
  | .fcvtSLu => ⟨.fcvtSLu, 4, 0xFFF0007F, 0xD0300053, 0, [
      ⟨.rd, [⟨11, 7, 0⟩], []⟩, ⟨.rs1, [⟨19, 15, 0⟩], []⟩, ⟨.rm, [⟨14, 12, 0⟩], []⟩]⟩
  | .faddD => ⟨.faddD, 4, 0xFE00007F, 0x02000053, 0, [
      ⟨.rd, [⟨11, 7, 0⟩], []⟩, ⟨.rs1, [⟨19, 15, 0⟩], []⟩, ⟨.rs2, [⟨24, 20, 0⟩], []⟩, ⟨.rm, [⟨14, 12, 0⟩], []⟩]⟩
  | .fsubD => ⟨.fsubD, 4, 0xFE00007F, 0x0A000053, 0, [
      ⟨.rd, [⟨11, 7, 0⟩], []⟩, ⟨.rs1, [⟨19, 15, 0⟩], []⟩, ⟨.rs2, [⟨24, 20, 0⟩], []⟩, ⟨.rm, [⟨14, 12, 0⟩], []⟩]⟩
  | .fmulD => ⟨.fmulD, 4, 0xFE00007F, 0x12000053, 0, [
      ⟨.rd, [⟨11, 7, 0⟩], []⟩, ⟨.rs1, [⟨19, 15, 0⟩], []⟩, ⟨.rs2, [⟨24, 20, 0⟩], []⟩, ⟨.rm, [⟨14, 12, 0⟩], []⟩]⟩
  | .fdivD => ⟨.fdivD, 4, 0xFE00007F, 0x1A000053, 0, [
      ⟨.rd, [⟨11, 7, 0⟩], []⟩, ⟨.rs1, [⟨19, 15, 0⟩], []⟩, ⟨.rs2, [⟨24, 20, 0⟩], []⟩, ⟨.rm, [⟨14, 12, 0⟩], []⟩]⟩
  | .fsqrtD => ⟨.fsqrtD, 4, 0xFFF0007F, 0x5A000053, 0, [
      ⟨.rd, [⟨11, 7, 0⟩], []⟩, ⟨.rs1, [⟨19, 15, 0⟩], []⟩, ⟨.rm, [⟨14, 12, 0⟩], []⟩]⟩
  | .fsgnjD => ⟨.fsgnjD, 4, 0xFE00707F, 0x22000053, 0, [
      ⟨.rd, [⟨11, 7, 0⟩], []⟩, ⟨.rs1, [⟨19, 15, 0⟩], []⟩, ⟨.rs2, [⟨24, 20, 0⟩], []⟩]⟩
  | .fsgnjnD => ⟨.fsgnjnD, 4, 0xFE00707F, 0x22001053, 0, [
      ⟨.rd, [⟨11, 7, 0⟩], []⟩, ⟨.rs1, [⟨19, 15, 0⟩], []⟩, ⟨.rs2, [⟨24, 20, 0⟩], []⟩]⟩
  | .fsgnjxD => ⟨.fsgnjxD, 4, 0xFE00707F, 0x22002053, 0, [
      ⟨.rd, [⟨11, 7, 0⟩], []⟩, ⟨.rs1, [⟨19, 15, 0⟩], []⟩, ⟨.rs2, [⟨24, 20, 0⟩], []⟩]⟩
  | .fminD => ⟨.fminD, 4, 0xFE00707F, 0x2A000053, 0, [
      ⟨.rd, [⟨11, 7, 0⟩], []⟩, ⟨.rs1, [⟨19, 15, 0⟩], []⟩, ⟨.rs2, [⟨24, 20, 0⟩], []⟩]⟩
  | .fmaxD => ⟨.fmaxD, 4, 0xFE00707F, 0x2A001053, 0, [
      ⟨.rd, [⟨11, 7, 0⟩], []⟩, ⟨.rs1, [⟨19, 15, 0⟩], []⟩, ⟨.rs2, [⟨24, 20, 0⟩], []⟩]⟩
  | .feqD => ⟨.feqD, 4, 0xFE00707F, 0xA2002053, 0, [
      ⟨.rd, [⟨11, 7, 0⟩], []⟩, ⟨.rs1, [⟨19, 15, 0⟩], []⟩, ⟨.rs2, [⟨24, 20, 0⟩], []⟩]⟩
  | .fltD => ⟨.fltD, 4, 0xFE00707F, 0xA2001053, 0, [
      ⟨.rd, [⟨11, 7, 0⟩], []⟩, ⟨.rs1, [⟨19, 15, 0⟩], []⟩, ⟨.rs2, [⟨24, 20, 0⟩], []⟩]⟩
  | .fleD => ⟨.fleD, 4, 0xFE00707F, 0xA2000053, 0, [
      ⟨.rd, [⟨11, 7, 0⟩], []⟩, ⟨.rs1, [⟨19, 15, 0⟩], []⟩, ⟨.rs2, [⟨24, 20, 0⟩], []⟩]⟩
  | .fclassD => ⟨.fclassD, 4, 0xFFF0707F, 0xE2001053, 0, [⟨.rd, [⟨11, 7, 0⟩], []⟩, ⟨.rs1, [⟨19, 15, 0⟩], []⟩]⟩
  | .fcvtWD => ⟨.fcvtWD, 4, 0xFFF0007F, 0xC2000053, 0, [
      ⟨.rd, [⟨11, 7, 0⟩], []⟩, ⟨.rs1, [⟨19, 15, 0⟩], []⟩, ⟨.rm, [⟨14, 12, 0⟩], []⟩]⟩
  | .fcvtWuD => ⟨.fcvtWuD, 4, 0xFFF0007F, 0xC2100053, 0, [
      ⟨.rd, [⟨11, 7, 0⟩], []⟩, ⟨.rs1, [⟨19, 15, 0⟩], []⟩, ⟨.rm, [⟨14, 12, 0⟩], []⟩]⟩
  | .fcvtLD => ⟨.fcvtLD, 4, 0xFFF0007F, 0xC2200053, 0, [
      ⟨.rd, [⟨11, 7, 0⟩], []⟩, ⟨.rs1, [⟨19, 15, 0⟩], []⟩, ⟨.rm, [⟨14, 12, 0⟩], []⟩]⟩
  | .fcvtLuD => ⟨.fcvtLuD, 4, 0xFFF0007F, 0xC2300053, 0, [
      ⟨.rd, [⟨11, 7, 0⟩], []⟩, ⟨.rs1, [⟨19, 15, 0⟩], []⟩, ⟨.rm, [⟨14, 12, 0⟩], []⟩]⟩
  | .fcvtDW => ⟨.fcvtDW, 4, 0xFFF0007F, 0xD2000053, 0, [
      ⟨.rd, [⟨11, 7, 0⟩], []⟩, ⟨.rs1, [⟨19, 15, 0⟩], []⟩, ⟨.rm, [⟨14, 12, 0⟩], []⟩]⟩
  | .fcvtDWu => ⟨.fcvtDWu, 4, 0xFFF0007F, 0xD2100053, 0, [
      ⟨.rd, [⟨11, 7, 0⟩], []⟩, ⟨.rs1, [⟨19, 15, 0⟩], []⟩, ⟨.rm, [⟨14, 12, 0⟩], []⟩]⟩
  | .fcvtDL => ⟨.fcvtDL, 4, 0xFFF0007F, 0xD2200053, 0, [
      ⟨.rd, [⟨11, 7, 0⟩], []⟩, ⟨.rs1, [⟨19, 15, 0⟩], []⟩, ⟨.rm, [⟨14, 12, 0⟩], []⟩]⟩
  | .fcvtDLu => ⟨.fcvtDLu, 4, 0xFFF0007F, 0xD2300053, 0, [
      ⟨.rd, [⟨11, 7, 0⟩], []⟩, ⟨.rs1, [⟨19, 15, 0⟩], []⟩, ⟨.rm, [⟨14, 12, 0⟩], []⟩]⟩
  | .fcvtSD => ⟨.fcvtSD, 4, 0xFFF0007F, 0x40100053, 0, [
      ⟨.rd, [⟨11, 7, 0⟩], []⟩, ⟨.rs1, [⟨19, 15, 0⟩], []⟩, ⟨.rm, [⟨14, 12, 0⟩], []⟩]⟩
  | .fcvtDS => ⟨.fcvtDS, 4, 0xFFF0007F, 0x42000053, 0, [
      ⟨.rd, [⟨11, 7, 0⟩], []⟩, ⟨.rs1, [⟨19, 15, 0⟩], []⟩, ⟨.rm, [⟨14, 12, 0⟩], []⟩]⟩
  | .fmaddS => ⟨.fmaddS, 4, 0x0600007F, 0x00000043, 0, [
      ⟨.rd, [⟨11, 7, 0⟩], []⟩,
      ⟨.rs1, [⟨19, 15, 0⟩], []⟩,
      ⟨.rs2, [⟨24, 20, 0⟩], []⟩,
      ⟨.rs3, [⟨31, 27, 0⟩], []⟩,
      ⟨.rm, [⟨14, 12, 0⟩], []⟩]⟩
  | .fmsubS => ⟨.fmsubS, 4, 0x0600007F, 0x00000047, 0, [
      ⟨.rd, [⟨11, 7, 0⟩], []⟩,
      ⟨.rs1, [⟨19, 15, 0⟩], []⟩,
      ⟨.rs2, [⟨24, 20, 0⟩], []⟩,
      ⟨.rs3, [⟨31, 27, 0⟩], []⟩,
      ⟨.rm, [⟨14, 12, 0⟩], []⟩]⟩
  | .fnmsubS => ⟨.fnmsubS, 4, 0x0600007F, 0x0000004B, 0, [
      ⟨.rd, [⟨11, 7, 0⟩], []⟩,
      ⟨.rs1, [⟨19, 15, 0⟩], []⟩,
      ⟨.rs2, [⟨24, 20, 0⟩], []⟩,
      ⟨.rs3, [⟨31, 27, 0⟩], []⟩,
      ⟨.rm, [⟨14, 12, 0⟩], []⟩]⟩
  | .fnmaddS => ⟨.fnmaddS, 4, 0x0600007F, 0x0000004F, 0, [
      ⟨.rd, [⟨11, 7, 0⟩], []⟩,
      ⟨.rs1, [⟨19, 15, 0⟩], []⟩,
      ⟨.rs2, [⟨24, 20, 0⟩], []⟩,
      ⟨.rs3, [⟨31, 27, 0⟩], []⟩,
      ⟨.rm, [⟨14, 12, 0⟩], []⟩]⟩
  | .fmaddD => ⟨.fmaddD, 4, 0x0600007F, 0x02000043, 0, [
      ⟨.rd, [⟨11, 7, 0⟩], []⟩,
      ⟨.rs1, [⟨19, 15, 0⟩], []⟩,
      ⟨.rs2, [⟨24, 20, 0⟩], []⟩,
      ⟨.rs3, [⟨31, 27, 0⟩], []⟩,
      ⟨.rm, [⟨14, 12, 0⟩], []⟩]⟩
  | .fmsubD => ⟨.fmsubD, 4, 0x0600007F, 0x02000047, 0, [
      ⟨.rd, [⟨11, 7, 0⟩], []⟩,
      ⟨.rs1, [⟨19, 15, 0⟩], []⟩,
      ⟨.rs2, [⟨24, 20, 0⟩], []⟩,
      ⟨.rs3, [⟨31, 27, 0⟩], []⟩,
      ⟨.rm, [⟨14, 12, 0⟩], []⟩]⟩
  | .fnmsubD => ⟨.fnmsubD, 4, 0x0600007F, 0x0200004B, 0, [
      ⟨.rd, [⟨11, 7, 0⟩], []⟩,
      ⟨.rs1, [⟨19, 15, 0⟩], []⟩,
      ⟨.rs2, [⟨24, 20, 0⟩], []⟩,
      ⟨.rs3, [⟨31, 27, 0⟩], []⟩,
      ⟨.rm, [⟨14, 12, 0⟩], []⟩]⟩
  | .fnmaddD => ⟨.fnmaddD, 4, 0x0600007F, 0x0200004F, 0, [
      ⟨.rd, [⟨11, 7, 0⟩], []⟩,
      ⟨.rs1, [⟨19, 15, 0⟩], []⟩,
      ⟨.rs2, [⟨24, 20, 0⟩], []⟩,
      ⟨.rs3, [⟨31, 27, 0⟩], []⟩,
      ⟨.rm, [⟨14, 12, 0⟩], []⟩]⟩
  | .hfenceVvma => ⟨.hfenceVvma, 4, 0xFE007FFF, 0x22000073, 0, [⟨.rs1, [⟨19, 15, 0⟩], []⟩, ⟨.rs2, [⟨24, 20, 0⟩], []⟩]⟩
  | .hfenceGvma => ⟨.hfenceGvma, 4, 0xFE007FFF, 0x62000073, 0, [⟨.rs1, [⟨19, 15, 0⟩], []⟩, ⟨.rs2, [⟨24, 20, 0⟩], []⟩]⟩
  | .hlvB => ⟨.hlvB, 4, 0xFFF0707F, 0x60004073, 0, [⟨.rd, [⟨11, 7, 0⟩], []⟩, ⟨.rs1, [⟨19, 15, 0⟩], []⟩]⟩
  | .hlvBu => ⟨.hlvBu, 4, 0xFFF0707F, 0x60104073, 0, [⟨.rd, [⟨11, 7, 0⟩], []⟩, ⟨.rs1, [⟨19, 15, 0⟩], []⟩]⟩
  | .hlvH => ⟨.hlvH, 4, 0xFFF0707F, 0x64004073, 0, [⟨.rd, [⟨11, 7, 0⟩], []⟩, ⟨.rs1, [⟨19, 15, 0⟩], []⟩]⟩
  | .hlvHu => ⟨.hlvHu, 4, 0xFFF0707F, 0x64104073, 0, [⟨.rd, [⟨11, 7, 0⟩], []⟩, ⟨.rs1, [⟨19, 15, 0⟩], []⟩]⟩
  | .hlvxHu => ⟨.hlvxHu, 4, 0xFFF0707F, 0x64304073, 0, [⟨.rd, [⟨11, 7, 0⟩], []⟩, ⟨.rs1, [⟨19, 15, 0⟩], []⟩]⟩
  | .hlvW => ⟨.hlvW, 4, 0xFFF0707F, 0x68004073, 0, [⟨.rd, [⟨11, 7, 0⟩], []⟩, ⟨.rs1, [⟨19, 15, 0⟩], []⟩]⟩
  | .hlvWu => ⟨.hlvWu, 4, 0xFFF0707F, 0x68104073, 0, [⟨.rd, [⟨11, 7, 0⟩], []⟩, ⟨.rs1, [⟨19, 15, 0⟩], []⟩]⟩
  | .hlvxWu => ⟨.hlvxWu, 4, 0xFFF0707F, 0x68304073, 0, [⟨.rd, [⟨11, 7, 0⟩], []⟩, ⟨.rs1, [⟨19, 15, 0⟩], []⟩]⟩
  | .hlvD => ⟨.hlvD, 4, 0xFFF0707F, 0x6C004073, 0, [⟨.rd, [⟨11, 7, 0⟩], []⟩, ⟨.rs1, [⟨19, 15, 0⟩], []⟩]⟩
  | .hsvB => ⟨.hsvB, 4, 0xFE007FFF, 0x62004073, 0, [⟨.rs1, [⟨19, 15, 0⟩], []⟩, ⟨.rs2, [⟨24, 20, 0⟩], []⟩]⟩
  | .hsvH => ⟨.hsvH, 4, 0xFE007FFF, 0x66004073, 0, [⟨.rs1, [⟨19, 15, 0⟩], []⟩, ⟨.rs2, [⟨24, 20, 0⟩], []⟩]⟩
  | .hsvW => ⟨.hsvW, 4, 0xFE007FFF, 0x6A004073, 0, [⟨.rs1, [⟨19, 15, 0⟩], []⟩, ⟨.rs2, [⟨24, 20, 0⟩], []⟩]⟩
  | .hsvD => ⟨.hsvD, 4, 0xFE007FFF, 0x6E004073, 0, [⟨.rs1, [⟨19, 15, 0⟩], []⟩, ⟨.rs2, [⟨24, 20, 0⟩], []⟩]⟩
  | .cboInval => ⟨.cboInval, 4, 0xFFF07FFF, 0x0000200F, 0, [⟨.rs1, [⟨19, 15, 0⟩], []⟩]⟩
  | .cboClean => ⟨.cboClean, 4, 0xFFF07FFF, 0x0010200F, 0, [⟨.rs1, [⟨19, 15, 0⟩], []⟩]⟩
  | .cboFlush => ⟨.cboFlush, 4, 0xFFF07FFF, 0x0020200F, 0, [⟨.rs1, [⟨19, 15, 0⟩], []⟩]⟩
  | .cboZero => ⟨.cboZero, 4, 0xFFF07FFF, 0x0040200F, 0, [⟨.rs1, [⟨19, 15, 0⟩], []⟩]⟩
  | .vectorOp => ⟨.vectorOp, 4, 0x0000007F, 0x00000057, 0, []⟩
  | .vectorLoadW8 => ⟨.vectorLoadW8, 4, 0x0000707F, 0x00000007, 0, []⟩
  | .vectorLoadW16 => ⟨.vectorLoadW16, 4, 0x0000707F, 0x00005007, 0, []⟩
  | .vectorLoadW32 => ⟨.vectorLoadW32, 4, 0x0000707F, 0x00006007, 0, []⟩
  | .vectorLoadW64 => ⟨.vectorLoadW64, 4, 0x0000707F, 0x00007007, 0, []⟩
  | .vectorStoreW8 => ⟨.vectorStoreW8, 4, 0x0000707F, 0x00000027, 0, []⟩
  | .vectorStoreW16 => ⟨.vectorStoreW16, 4, 0x0000707F, 0x00005027, 0, []⟩
  | .vectorStoreW32 => ⟨.vectorStoreW32, 4, 0x0000707F, 0x00006027, 0, []⟩
  | .vectorStoreW64 => ⟨.vectorStoreW64, 4, 0x0000707F, 0x00007027, 0, []⟩

/-- Identifiers 1 to 32 of the table. -/
def Op.chunk0 : List Op :=
  [.lui, .auipc, .addi, .slti, .sltiu, .xori, .ori, .andi,
   .slli, .srli, .srai, .add, .sub, .sll, .slt, .sltu,
   .xor, .srl, .sra, .or, .and, .addiw, .slliw, .srliw,
   .sraiw, .addw, .subw, .sllw, .srlw, .sraw, .jal, .jalr]

/-- Identifiers 33 to 64 of the table. -/
def Op.chunk1 : List Op :=
  [.beq, .bne, .blt, .bge, .bltu, .bgeu, .lb, .lh,
   .lw, .ld, .lbu, .lhu, .lwu, .sb, .sh, .sw,
   .sd, .mul, .mulh, .mulhsu, .mulhu, .div, .divu, .rem,
   .remu, .mulw, .divw, .divuw, .remw, .remuw, .lrW, .scW]

/-- Identifiers 65 to 96 of the table. -/
def Op.chunk2 : List Op :=
  [.amoswapW, .amoaddW, .amoxorW, .amoandW, .amoorW, .amominW, .amomaxW, .amominuW,
   .amomaxuW, .lrD, .scD, .amoswapD, .amoaddD, .amoxorD, .amoandD, .amoorD,
   .amominD, .amomaxD, .amominuD, .amomaxuD, .csrrw, .csrrs, .csrrc, .csrrwi,
   .csrrsi, .csrrci, .fence, .fenceI, .ecall, .ebreak, .sret, .mret]

/-- Identifiers 97 to 128 of the table. -/
def Op.chunk3 : List Op :=
  [.wfi, .sfenceVma, .cAddi4spn, .cFld, .cLw, .cLd, .cFsd, .cSw,
   .cSd, .cAddi, .cAddiw, .cLi, .cAddi16sp, .cLui, .cSrli, .cSrai,
   .cAndi, .cSub, .cXor, .cOr, .cAnd, .cSubw, .cAddw, .cJ,
   .cBeqz, .cBnez, .cSlli, .cFldsp, .cLwsp, .cLdsp, .cJr, .cMv]

/-- Identifiers 129 to 160 of the table. -/
def Op.chunk4 : List Op :=
  [.cEbreak, .cJalr, .cAdd, .cFsdsp, .cSwsp, .cSdsp, .flw, .fld,
   .fsw, .fsd, .fmvXW, .fmvWX, .fmvXD, .fmvDX, .faddS, .fsubS,
   .fmulS, .fdivS, .fsqrtS, .fsgnjS, .fsgnjnS, .fsgnjxS, .fminS, .fmaxS,
   .feqS, .fltS, .fleS, .fclassS, .fcvtWS, .fcvtWuS, .fcvtLS, .fcvtLuS]

/-- Identifiers 161 to 192 of the table. -/
def Op.chunk5 : List Op :=
  [.fcvtSW, .fcvtSWu, .fcvtSL, .fcvtSLu, .faddD, .fsubD, .fmulD, .fdivD,
   .fsqrtD, .fsgnjD, .fsgnjnD, .fsgnjxD, .fminD, .fmaxD, .feqD, .fltD,
   .fleD, .fclassD, .fcvtWD, .fcvtWuD, .fcvtLD, .fcvtLuD, .fcvtDW, .fcvtDWu,
   .fcvtDL, .fcvtDLu, .fcvtSD, .fcvtDS, .fmaddS, .fmsubS, .fnmsubS, .fnmaddS]

/-- Identifiers 193 to 224 of the table. -/
def Op.chunk6 : List Op :=
  [.fmaddD, .fmsubD, .fnmsubD, .fnmaddD, .hfenceVvma, .hfenceGvma, .hlvB, .hlvBu,
   .hlvH, .hlvHu, .hlvxHu, .hlvW, .hlvWu, .hlvxWu, .hlvD, .hsvB,
   .hsvH, .hsvW, .hsvD, .cboInval, .cboClean, .cboFlush, .cboZero, .vectorOp,
   .vectorLoadW8, .vectorLoadW16, .vectorLoadW32, .vectorLoadW64, .vectorStoreW8, .vectorStoreW16, .vectorStoreW32, .vectorStoreW64]

/-- Every identifier, in the order of the opcode table. -/
def Op.all : List Op :=
  Op.chunk0 ++ Op.chunk1 ++ Op.chunk2 ++ Op.chunk3 ++ Op.chunk4 ++ Op.chunk5 ++ Op.chunk6

/-- The default `ISA_TABLE`: one definition for each row of the opcode table (R11, R180). -/
def table : List Definition := Op.all.map row

/-! ### Load-time checks (R180, R182, R185, R187) -/

/-- One character of a pattern string: `0` and `1` are fixed bits, a blank (written `-`) is free (R182). -/
def patternBit : Char → Option (Nat × Nat)
  | '0' => some (1, 0)
  | '1' => some (1, 1)
  | '-' => some (0, 0)
  | ' ' => some (0, 0)
  | _ => none

/-- Mask and match of a pattern read most-significant bit first (R182). -/
def patternValue : List Char → Nat × Nat → Option (Nat × Nat)
  | [], acc => some acc
  | c :: cs, (m, b) =>
    match patternBit c with
    | some (x, y) => patternValue cs (2 * m + x, 2 * b + y)
    | none => none

/-- Length in bytes, mask and match of a pattern string of 16 or 32 characters; anything else is malformed (R180,
R182). -/
def parsePattern (pattern : String) : Option (Nat × Insn × Insn) :=
  let cs := pattern.toList
  if cs.length == 16 || cs.length == 32 then
    match patternValue cs (0, 0) with
    | some (m, b) => some ((cs.length + 7) / 8, BitVec.ofNat 32 m, BitVec.ofNat 32 b)
    | none => none
  else none

/-- A definition is well formed: a length of 2 or 4 that its lowest two bits announce with both bits in the mask, a
pattern inside the mask and the length, segments inside the word and 32 bits, no label twice (R181, R182, R187). DESIGN
CHOICE, unsafe: the spec does not list what makes a description malformed (R180). These conditions are refused; segments that
overlap, operands over fixed bits and a restriction that is no mode's code are accepted: the segments are or-ed (R183), and
such a restriction matches in no mode (R184) (log entry 23). -/
def Definition.wellFormed (d : Definition) : Bool :=
  (d.length == 2 || d.length == 4) && d.mask &&& 3 == 3 && wordLength d.bits == d.length &&
  d.bits &&& ~~~d.mask == 0 && (d.mask >>> (8 * d.length)) == 0 &&
  (d.operands.all fun o => o.segments.all fun s => s.lo ≤ s.hi && s.hi < 8 * d.length && s.shift + s.size ≤ 32) &&
  decide (d.operands.map fun o => o.label).Nodup

/-- The handler of the definition's identifier can execute what it matches: each operand the handler reads is named, its values
among those the handler takes. The definition's length is its own: the handler is given it (R203). A definition without a handler
has no semantics, and its table is refused (R181, R198). DESIGN CHOICE, safe: what operands a handler can take is read off its row
in the default table (log entry 20). -/
def Definition.handled (d : Definition) : Bool :=
  (row d.op).operands.all fun o =>
    match d.operand o.label with
    | some o' => o'.cover &&& ~~~o.cover == 0
    | none => false

/-- The operand values the handler of the definition's identifier reads from a word, in the handler's order (R181, R183). DESIGN
CHOICE, unsafe: an operand that the definition does not name is read as 0. `Registry.accepts` refuses such a definition, so this
shows only in a state whose table no load has checked, where R198 gives the definition no semantics (log entry 20). -/
def Definition.handlerValues (d : Definition) (word : Insn) : List Insn :=
  (row d.op).operands.map fun o =>
    match d.operand o.label with
    | some o' => o'.decode word
    | none => 0

/-- The word bits an operand reads. -/
def Operand.span (o : Operand) : Insn := o.segments.foldl (fun acc s => acc ||| (ones s.size <<< s.lo)) 0

/-- The operand reads one value in every word that has the bits `bits` where `known` is set, and that value is excluded. -/
def Operand.surelyExcluded (o : Operand) (known bits : Insn) : Bool :=
  o.decode bits == o.decode (bits ||| ~~~known) && !o.admits (o.decode bits)

/-- Some word has the bits `bits` where `known` is set, and no operand reads an excluded value in it: a search over the bits that
the operands read and that are not known. -/
def someWordAdmits (os : List Operand) : List Nat → Insn → Insn → Bool
  | [], _, bits => os.all fun o => o.admits (o.decode bits)
  | p :: ps, known, bits =>
    !(os.any fun o => o.surelyExcluded known bits) &&
      (someWordAdmits os ps (known ||| .twoPow 32 p) bits ||
        someWordAdmits os ps (known ||| .twoPow 32 p) (bits ||| .twoPow 32 p))

/-- The operands of two definitions that exclude a value. -/
def Definition.excluding (d e : Definition) : List Operand :=
  (d.operands ++ e.operands).filter fun o => !o.exclusions.isEmpty

/-- The bits of the word that those operands read and that neither definition fixes. -/
def Definition.choices (d e : Definition) : List Nat :=
  (List.range 32).filter fun p => !(d.mask ||| e.mask).getLsbD p && (d.excluding e).any fun o => o.span.getLsbD p

/-- Some mode and word match both definitions (R184, R185). -/
def Definition.overlaps (d e : Definition) : Bool :=
  (d.bits ^^^ e.bits) &&& (d.mask &&& e.mask) == 0 && d.length == e.length &&
  ([Priv.user, .supervisor, .machine].any fun mode => d.allows mode && e.allows mode) &&
  someWordAdmits (d.excluding e) (d.choices e) (d.mask ||| e.mask) (d.bits ||| e.bits)

/-- The pairwise check made when a table is loaded: "no two loaded definitions may simultaneously satisfy the same
(mode, word)" (R185). -/
def Registry.pairwiseApart : List Definition → Bool
  | [] => true
  | d :: ds => ds.all (fun e => !d.overlaps e) && Registry.pairwiseApart ds

/-- A table the registry accepts: every definition well formed and with a handler, no two of them matching one word (R180,
R185, R198). -/
def Registry.accepts (t : List Definition) : Bool :=
  t.all (fun d => d.wellFormed && d.handled) && Registry.pairwiseApart t

/-! ### From operand values to instructions and back -/

/-- A constructor of one operand applied to the decoded values. -/
def build1 {a : Nat} (f : BitVec a → Instr) : List Insn → Option Instr
  | [x] => some (f (x.setWidth a))
  | _ => none

/-- A constructor of two operands applied to the decoded values. -/
def build2 {a b : Nat} (f : BitVec a → BitVec b → Instr) : List Insn → Option Instr
  | [x, y] => some (f (x.setWidth a) (y.setWidth b))
  | _ => none

/-- A constructor of three operands applied to the decoded values. -/
def build3 {a b c : Nat} (f : BitVec a → BitVec b → BitVec c → Instr) : List Insn → Option Instr
  | [x, y, z] => some (f (x.setWidth a) (y.setWidth b) (z.setWidth c))
  | _ => none

/-- A constructor of four operands applied to the decoded values. -/
def build4 {a b c d : Nat} (f : BitVec a → BitVec b → BitVec c → BitVec d → Instr) : List Insn → Option Instr
  | [x, y, z, u] => some (f (x.setWidth a) (y.setWidth b) (z.setWidth c) (u.setWidth d))
  | _ => none

/-- A constructor of five operands applied to the decoded values. -/
def build5 {a b c d e : Nat} (f : BitVec a → BitVec b → BitVec c → BitVec d → BitVec e → Instr) :
    List Insn → Option Instr
  | [x, y, z, u, v] => some (f (x.setWidth a) (y.setWidth b) (z.setWidth c) (u.setWidth d) (v.setWidth e))
  | _ => none

/-- A constructor without operands. -/
def build0 (i : Instr) : List Insn → Option Instr
  | [] => some i
  | _ => none

/-- The instruction of an identifier and its operand values, in the row's operand order (R183, R193). -/
def Instr.ofOperands : Op → List Insn → Option Instr
  | .lui => build2 .lui
  | .auipc => build2 .auipc
  | .addi => build3 .addi
  | .slti => build3 .slti
  | .sltiu => build3 .sltiu
  | .xori => build3 .xori
  | .ori => build3 .ori
  | .andi => build3 .andi
  | .slli => build3 .slli
  | .srli => build3 .srli
  | .srai => build3 .srai
  | .add => build3 .add
  | .sub => build3 .sub
  | .sll => build3 .sll
  | .slt => build3 .slt
  | .sltu => build3 .sltu
  | .xor => build3 .xor
  | .srl => build3 .srl
  | .sra => build3 .sra
  | .or => build3 .or
  | .and => build3 .and
  | .addiw => build3 .addiw
  | .slliw => build3 .slliw
  | .srliw => build3 .srliw
  | .sraiw => build3 .sraiw
  | .addw => build3 .addw
  | .subw => build3 .subw
  | .sllw => build3 .sllw
  | .srlw => build3 .srlw
  | .sraw => build3 .sraw
  | .jal => build2 .jal
  | .jalr => build3 .jalr
  | .beq => build3 .beq
  | .bne => build3 .bne
  | .blt => build3 .blt
  | .bge => build3 .bge
  | .bltu => build3 .bltu
  | .bgeu => build3 .bgeu
  | .lb => build3 .lb
  | .lh => build3 .lh
  | .lw => build3 .lw
  | .ld => build3 .ld
  | .lbu => build3 .lbu
  | .lhu => build3 .lhu
  | .lwu => build3 .lwu
  | .sb => build3 .sb
  | .sh => build3 .sh
  | .sw => build3 .sw
  | .sd => build3 .sd
  | .mul => build3 .mul
  | .mulh => build3 .mulh
  | .mulhsu => build3 .mulhsu
  | .mulhu => build3 .mulhu
  | .div => build3 .div
  | .divu => build3 .divu
  | .rem => build3 .rem
  | .remu => build3 .remu
  | .mulw => build3 .mulw
  | .divw => build3 .divw
  | .divuw => build3 .divuw
  | .remw => build3 .remw
  | .remuw => build3 .remuw
  | .lrW => build4 .lrW
  | .scW => build5 .scW
  | .amoswapW => build5 .amoswapW
  | .amoaddW => build5 .amoaddW
  | .amoxorW => build5 .amoxorW
  | .amoandW => build5 .amoandW
  | .amoorW => build5 .amoorW
  | .amominW => build5 .amominW
  | .amomaxW => build5 .amomaxW
  | .amominuW => build5 .amominuW
  | .amomaxuW => build5 .amomaxuW
  | .lrD => build4 .lrD
  | .scD => build5 .scD
  | .amoswapD => build5 .amoswapD
  | .amoaddD => build5 .amoaddD
  | .amoxorD => build5 .amoxorD
  | .amoandD => build5 .amoandD
  | .amoorD => build5 .amoorD
  | .amominD => build5 .amominD
  | .amomaxD => build5 .amomaxD
  | .amominuD => build5 .amominuD
  | .amomaxuD => build5 .amomaxuD
  | .csrrw => build3 .csrrw
  | .csrrs => build3 .csrrs
  | .csrrc => build3 .csrrc
  | .csrrwi => build3 .csrrwi
  | .csrrsi => build3 .csrrsi
  | .csrrci => build3 .csrrci
  | .fence => build5 .fence
  | .fenceI => build3 .fenceI
  | .ecall => build0 .ecall
  | .ebreak => build0 .ebreak
  | .sret => build0 .sret
  | .mret => build0 .mret
  | .wfi => build0 .wfi
  | .sfenceVma => build2 .sfenceVma
  | .cAddi4spn => build2 .cAddi4spn
  | .cFld => build3 .cFld
  | .cLw => build3 .cLw
  | .cLd => build3 .cLd
  | .cFsd => build3 .cFsd
  | .cSw => build3 .cSw
  | .cSd => build3 .cSd
  | .cAddi => build2 .cAddi
  | .cAddiw => build2 .cAddiw
  | .cLi => build2 .cLi
  | .cAddi16sp => build1 .cAddi16sp
  | .cLui => build2 .cLui
  | .cSrli => build2 .cSrli
  | .cSrai => build2 .cSrai
  | .cAndi => build2 .cAndi
  | .cSub => build2 .cSub
  | .cXor => build2 .cXor
  | .cOr => build2 .cOr
  | .cAnd => build2 .cAnd
  | .cSubw => build2 .cSubw
  | .cAddw => build2 .cAddw
  | .cJ => build1 .cJ
  | .cBeqz => build2 .cBeqz
  | .cBnez => build2 .cBnez
  | .cSlli => build2 .cSlli
  | .cFldsp => build2 .cFldsp
  | .cLwsp => build2 .cLwsp
  | .cLdsp => build2 .cLdsp
  | .cJr => build1 .cJr
  | .cMv => build2 .cMv
  | .cEbreak => build0 .cEbreak
  | .cJalr => build1 .cJalr
  | .cAdd => build2 .cAdd
  | .cFsdsp => build2 .cFsdsp
  | .cSwsp => build2 .cSwsp
  | .cSdsp => build2 .cSdsp
  | .flw => build3 .flw
  | .fld => build3 .fld
  | .fsw => build3 .fsw
  | .fsd => build3 .fsd
  | .fmvXW => build2 .fmvXW
  | .fmvWX => build2 .fmvWX
  | .fmvXD => build2 .fmvXD
  | .fmvDX => build2 .fmvDX
  | .faddS => build4 .faddS
  | .fsubS => build4 .fsubS
  | .fmulS => build4 .fmulS
  | .fdivS => build4 .fdivS
  | .fsqrtS => build3 .fsqrtS
  | .fsgnjS => build3 .fsgnjS
  | .fsgnjnS => build3 .fsgnjnS
  | .fsgnjxS => build3 .fsgnjxS
  | .fminS => build3 .fminS
  | .fmaxS => build3 .fmaxS
  | .feqS => build3 .feqS
  | .fltS => build3 .fltS
  | .fleS => build3 .fleS
  | .fclassS => build2 .fclassS
  | .fcvtWS => build3 .fcvtWS
  | .fcvtWuS => build3 .fcvtWuS
  | .fcvtLS => build3 .fcvtLS
  | .fcvtLuS => build3 .fcvtLuS
  | .fcvtSW => build3 .fcvtSW
  | .fcvtSWu => build3 .fcvtSWu
  | .fcvtSL => build3 .fcvtSL
  | .fcvtSLu => build3 .fcvtSLu
  | .faddD => build4 .faddD
  | .fsubD => build4 .fsubD
  | .fmulD => build4 .fmulD
  | .fdivD => build4 .fdivD
  | .fsqrtD => build3 .fsqrtD
  | .fsgnjD => build3 .fsgnjD
  | .fsgnjnD => build3 .fsgnjnD
  | .fsgnjxD => build3 .fsgnjxD
  | .fminD => build3 .fminD
  | .fmaxD => build3 .fmaxD
  | .feqD => build3 .feqD
  | .fltD => build3 .fltD
  | .fleD => build3 .fleD
  | .fclassD => build2 .fclassD
  | .fcvtWD => build3 .fcvtWD
  | .fcvtWuD => build3 .fcvtWuD
  | .fcvtLD => build3 .fcvtLD
  | .fcvtLuD => build3 .fcvtLuD
  | .fcvtDW => build3 .fcvtDW
  | .fcvtDWu => build3 .fcvtDWu
  | .fcvtDL => build3 .fcvtDL
  | .fcvtDLu => build3 .fcvtDLu
  | .fcvtSD => build3 .fcvtSD
  | .fcvtDS => build3 .fcvtDS
  | .fmaddS => build5 .fmaddS
  | .fmsubS => build5 .fmsubS
  | .fnmsubS => build5 .fnmsubS
  | .fnmaddS => build5 .fnmaddS
  | .fmaddD => build5 .fmaddD
  | .fmsubD => build5 .fmsubD
  | .fnmsubD => build5 .fnmsubD
  | .fnmaddD => build5 .fnmaddD
  | .hfenceVvma => build2 .hfenceVvma
  | .hfenceGvma => build2 .hfenceGvma
  | .hlvB => build2 .hlvB
  | .hlvBu => build2 .hlvBu
  | .hlvH => build2 .hlvH
  | .hlvHu => build2 .hlvHu
  | .hlvxHu => build2 .hlvxHu
  | .hlvW => build2 .hlvW
  | .hlvWu => build2 .hlvWu
  | .hlvxWu => build2 .hlvxWu
  | .hlvD => build2 .hlvD
  | .hsvB => build2 .hsvB
  | .hsvH => build2 .hsvH
  | .hsvW => build2 .hsvW
  | .hsvD => build2 .hsvD
  | .cboInval => build1 .cboInval
  | .cboClean => build1 .cboClean
  | .cboFlush => build1 .cboFlush
  | .cboZero => build1 .cboZero
  | .vectorOp => build0 .vectorOp
  | .vectorLoadW8 => build0 .vectorLoadW8
  | .vectorLoadW16 => build0 .vectorLoadW16
  | .vectorLoadW32 => build0 .vectorLoadW32
  | .vectorLoadW64 => build0 .vectorLoadW64
  | .vectorStoreW8 => build0 .vectorStoreW8
  | .vectorStoreW16 => build0 .vectorStoreW16
  | .vectorStoreW32 => build0 .vectorStoreW32
  | .vectorStoreW64 => build0 .vectorStoreW64

/-- The identifier of an instruction's definition. -/
def Instr.op : Instr → Op
  | .lui _ _ => .lui
  | .auipc _ _ => .auipc
  | .addi _ _ _ => .addi
  | .slti _ _ _ => .slti
  | .sltiu _ _ _ => .sltiu
  | .xori _ _ _ => .xori
  | .ori _ _ _ => .ori
  | .andi _ _ _ => .andi
  | .slli _ _ _ => .slli
  | .srli _ _ _ => .srli
  | .srai _ _ _ => .srai
  | .add _ _ _ => .add
  | .sub _ _ _ => .sub
  | .sll _ _ _ => .sll
  | .slt _ _ _ => .slt
  | .sltu _ _ _ => .sltu
  | .xor _ _ _ => .xor
  | .srl _ _ _ => .srl
  | .sra _ _ _ => .sra
  | .or _ _ _ => .or
  | .and _ _ _ => .and
  | .addiw _ _ _ => .addiw
  | .slliw _ _ _ => .slliw
  | .srliw _ _ _ => .srliw
  | .sraiw _ _ _ => .sraiw
  | .addw _ _ _ => .addw
  | .subw _ _ _ => .subw
  | .sllw _ _ _ => .sllw
  | .srlw _ _ _ => .srlw
  | .sraw _ _ _ => .sraw
  | .jal _ _ => .jal
  | .jalr _ _ _ => .jalr
  | .beq _ _ _ => .beq
  | .bne _ _ _ => .bne
  | .blt _ _ _ => .blt
  | .bge _ _ _ => .bge
  | .bltu _ _ _ => .bltu
  | .bgeu _ _ _ => .bgeu
  | .lb _ _ _ => .lb
  | .lh _ _ _ => .lh
  | .lw _ _ _ => .lw
  | .ld _ _ _ => .ld
  | .lbu _ _ _ => .lbu
  | .lhu _ _ _ => .lhu
  | .lwu _ _ _ => .lwu
  | .sb _ _ _ => .sb
  | .sh _ _ _ => .sh
  | .sw _ _ _ => .sw
  | .sd _ _ _ => .sd
  | .mul _ _ _ => .mul
  | .mulh _ _ _ => .mulh
  | .mulhsu _ _ _ => .mulhsu
  | .mulhu _ _ _ => .mulhu
  | .div _ _ _ => .div
  | .divu _ _ _ => .divu
  | .rem _ _ _ => .rem
  | .remu _ _ _ => .remu
  | .mulw _ _ _ => .mulw
  | .divw _ _ _ => .divw
  | .divuw _ _ _ => .divuw
  | .remw _ _ _ => .remw
  | .remuw _ _ _ => .remuw
  | .lrW _ _ _ _ => .lrW
  | .scW _ _ _ _ _ => .scW
  | .amoswapW _ _ _ _ _ => .amoswapW
  | .amoaddW _ _ _ _ _ => .amoaddW
  | .amoxorW _ _ _ _ _ => .amoxorW
  | .amoandW _ _ _ _ _ => .amoandW
  | .amoorW _ _ _ _ _ => .amoorW
  | .amominW _ _ _ _ _ => .amominW
  | .amomaxW _ _ _ _ _ => .amomaxW
  | .amominuW _ _ _ _ _ => .amominuW
  | .amomaxuW _ _ _ _ _ => .amomaxuW
  | .lrD _ _ _ _ => .lrD
  | .scD _ _ _ _ _ => .scD
  | .amoswapD _ _ _ _ _ => .amoswapD
  | .amoaddD _ _ _ _ _ => .amoaddD
  | .amoxorD _ _ _ _ _ => .amoxorD
  | .amoandD _ _ _ _ _ => .amoandD
  | .amoorD _ _ _ _ _ => .amoorD
  | .amominD _ _ _ _ _ => .amominD
  | .amomaxD _ _ _ _ _ => .amomaxD
  | .amominuD _ _ _ _ _ => .amominuD
  | .amomaxuD _ _ _ _ _ => .amomaxuD
  | .csrrw _ _ _ => .csrrw
  | .csrrs _ _ _ => .csrrs
  | .csrrc _ _ _ => .csrrc
  | .csrrwi _ _ _ => .csrrwi
  | .csrrsi _ _ _ => .csrrsi
  | .csrrci _ _ _ => .csrrci
  | .fence _ _ _ _ _ => .fence
  | .fenceI _ _ _ => .fenceI
  | .ecall => .ecall
  | .ebreak => .ebreak
  | .sret => .sret
  | .mret => .mret
  | .wfi => .wfi
  | .sfenceVma _ _ => .sfenceVma
  | .cAddi4spn _ _ => .cAddi4spn
  | .cFld _ _ _ => .cFld
  | .cLw _ _ _ => .cLw
  | .cLd _ _ _ => .cLd
  | .cFsd _ _ _ => .cFsd
  | .cSw _ _ _ => .cSw
  | .cSd _ _ _ => .cSd
  | .cAddi _ _ => .cAddi
  | .cAddiw _ _ => .cAddiw
  | .cLi _ _ => .cLi
  | .cAddi16sp _ => .cAddi16sp
  | .cLui _ _ => .cLui
  | .cSrli _ _ => .cSrli
  | .cSrai _ _ => .cSrai
  | .cAndi _ _ => .cAndi
  | .cSub _ _ => .cSub
  | .cXor _ _ => .cXor
  | .cOr _ _ => .cOr
  | .cAnd _ _ => .cAnd
  | .cSubw _ _ => .cSubw
  | .cAddw _ _ => .cAddw
  | .cJ _ => .cJ
  | .cBeqz _ _ => .cBeqz
  | .cBnez _ _ => .cBnez
  | .cSlli _ _ => .cSlli
  | .cFldsp _ _ => .cFldsp
  | .cLwsp _ _ => .cLwsp
  | .cLdsp _ _ => .cLdsp
  | .cJr _ => .cJr
  | .cMv _ _ => .cMv
  | .cEbreak => .cEbreak
  | .cJalr _ => .cJalr
  | .cAdd _ _ => .cAdd
  | .cFsdsp _ _ => .cFsdsp
  | .cSwsp _ _ => .cSwsp
  | .cSdsp _ _ => .cSdsp
  | .flw _ _ _ => .flw
  | .fld _ _ _ => .fld
  | .fsw _ _ _ => .fsw
  | .fsd _ _ _ => .fsd
  | .fmvXW _ _ => .fmvXW
  | .fmvWX _ _ => .fmvWX
  | .fmvXD _ _ => .fmvXD
  | .fmvDX _ _ => .fmvDX
  | .faddS _ _ _ _ => .faddS
  | .fsubS _ _ _ _ => .fsubS
  | .fmulS _ _ _ _ => .fmulS
  | .fdivS _ _ _ _ => .fdivS
  | .fsqrtS _ _ _ => .fsqrtS
  | .fsgnjS _ _ _ => .fsgnjS
  | .fsgnjnS _ _ _ => .fsgnjnS
  | .fsgnjxS _ _ _ => .fsgnjxS
  | .fminS _ _ _ => .fminS
  | .fmaxS _ _ _ => .fmaxS
  | .feqS _ _ _ => .feqS
  | .fltS _ _ _ => .fltS
  | .fleS _ _ _ => .fleS
  | .fclassS _ _ => .fclassS
  | .fcvtWS _ _ _ => .fcvtWS
  | .fcvtWuS _ _ _ => .fcvtWuS
  | .fcvtLS _ _ _ => .fcvtLS
  | .fcvtLuS _ _ _ => .fcvtLuS
  | .fcvtSW _ _ _ => .fcvtSW
  | .fcvtSWu _ _ _ => .fcvtSWu
  | .fcvtSL _ _ _ => .fcvtSL
  | .fcvtSLu _ _ _ => .fcvtSLu
  | .faddD _ _ _ _ => .faddD
  | .fsubD _ _ _ _ => .fsubD
  | .fmulD _ _ _ _ => .fmulD
  | .fdivD _ _ _ _ => .fdivD
  | .fsqrtD _ _ _ => .fsqrtD
  | .fsgnjD _ _ _ => .fsgnjD
  | .fsgnjnD _ _ _ => .fsgnjnD
  | .fsgnjxD _ _ _ => .fsgnjxD
  | .fminD _ _ _ => .fminD
  | .fmaxD _ _ _ => .fmaxD
  | .feqD _ _ _ => .feqD
  | .fltD _ _ _ => .fltD
  | .fleD _ _ _ => .fleD
  | .fclassD _ _ => .fclassD
  | .fcvtWD _ _ _ => .fcvtWD
  | .fcvtWuD _ _ _ => .fcvtWuD
  | .fcvtLD _ _ _ => .fcvtLD
  | .fcvtLuD _ _ _ => .fcvtLuD
  | .fcvtDW _ _ _ => .fcvtDW
  | .fcvtDWu _ _ _ => .fcvtDWu
  | .fcvtDL _ _ _ => .fcvtDL
  | .fcvtDLu _ _ _ => .fcvtDLu
  | .fcvtSD _ _ _ => .fcvtSD
  | .fcvtDS _ _ _ => .fcvtDS
  | .fmaddS _ _ _ _ _ => .fmaddS
  | .fmsubS _ _ _ _ _ => .fmsubS
  | .fnmsubS _ _ _ _ _ => .fnmsubS
  | .fnmaddS _ _ _ _ _ => .fnmaddS
  | .fmaddD _ _ _ _ _ => .fmaddD
  | .fmsubD _ _ _ _ _ => .fmsubD
  | .fnmsubD _ _ _ _ _ => .fnmsubD
  | .fnmaddD _ _ _ _ _ => .fnmaddD
  | .hfenceVvma _ _ => .hfenceVvma
  | .hfenceGvma _ _ => .hfenceGvma
  | .hlvB _ _ => .hlvB
  | .hlvBu _ _ => .hlvBu
  | .hlvH _ _ => .hlvH
  | .hlvHu _ _ => .hlvHu
  | .hlvxHu _ _ => .hlvxHu
  | .hlvW _ _ => .hlvW
  | .hlvWu _ _ => .hlvWu
  | .hlvxWu _ _ => .hlvxWu
  | .hlvD _ _ => .hlvD
  | .hsvB _ _ => .hsvB
  | .hsvH _ _ => .hsvH
  | .hsvW _ _ => .hsvW
  | .hsvD _ _ => .hsvD
  | .cboInval _ => .cboInval
  | .cboClean _ => .cboClean
  | .cboFlush _ => .cboFlush
  | .cboZero _ => .cboZero
  | .vectorOp => .vectorOp
  | .vectorLoadW8 => .vectorLoadW8
  | .vectorLoadW16 => .vectorLoadW16
  | .vectorLoadW32 => .vectorLoadW32
  | .vectorLoadW64 => .vectorLoadW64
  | .vectorStoreW8 => .vectorStoreW8
  | .vectorStoreW16 => .vectorStoreW16
  | .vectorStoreW32 => .vectorStoreW32
  | .vectorStoreW64 => .vectorStoreW64

/-- The operand values of an instruction, in the row's operand order, each as an unsigned number of 32 bits (R15,
R183). -/
def Instr.operands : Instr → List Insn
  | .lui a b => [a.setWidth 32, b.setWidth 32]
  | .auipc a b => [a.setWidth 32, b.setWidth 32]
  | .addi a b c => [a.setWidth 32, b.setWidth 32, c.setWidth 32]
  | .slti a b c => [a.setWidth 32, b.setWidth 32, c.setWidth 32]
  | .sltiu a b c => [a.setWidth 32, b.setWidth 32, c.setWidth 32]
  | .xori a b c => [a.setWidth 32, b.setWidth 32, c.setWidth 32]
  | .ori a b c => [a.setWidth 32, b.setWidth 32, c.setWidth 32]
  | .andi a b c => [a.setWidth 32, b.setWidth 32, c.setWidth 32]
  | .slli a b c => [a.setWidth 32, b.setWidth 32, c.setWidth 32]
  | .srli a b c => [a.setWidth 32, b.setWidth 32, c.setWidth 32]
  | .srai a b c => [a.setWidth 32, b.setWidth 32, c.setWidth 32]
  | .add a b c => [a.setWidth 32, b.setWidth 32, c.setWidth 32]
  | .sub a b c => [a.setWidth 32, b.setWidth 32, c.setWidth 32]
  | .sll a b c => [a.setWidth 32, b.setWidth 32, c.setWidth 32]
  | .slt a b c => [a.setWidth 32, b.setWidth 32, c.setWidth 32]
  | .sltu a b c => [a.setWidth 32, b.setWidth 32, c.setWidth 32]
  | .xor a b c => [a.setWidth 32, b.setWidth 32, c.setWidth 32]
  | .srl a b c => [a.setWidth 32, b.setWidth 32, c.setWidth 32]
  | .sra a b c => [a.setWidth 32, b.setWidth 32, c.setWidth 32]
  | .or a b c => [a.setWidth 32, b.setWidth 32, c.setWidth 32]
  | .and a b c => [a.setWidth 32, b.setWidth 32, c.setWidth 32]
  | .addiw a b c => [a.setWidth 32, b.setWidth 32, c.setWidth 32]
  | .slliw a b c => [a.setWidth 32, b.setWidth 32, c.setWidth 32]
  | .srliw a b c => [a.setWidth 32, b.setWidth 32, c.setWidth 32]
  | .sraiw a b c => [a.setWidth 32, b.setWidth 32, c.setWidth 32]
  | .addw a b c => [a.setWidth 32, b.setWidth 32, c.setWidth 32]
  | .subw a b c => [a.setWidth 32, b.setWidth 32, c.setWidth 32]
  | .sllw a b c => [a.setWidth 32, b.setWidth 32, c.setWidth 32]
  | .srlw a b c => [a.setWidth 32, b.setWidth 32, c.setWidth 32]
  | .sraw a b c => [a.setWidth 32, b.setWidth 32, c.setWidth 32]
  | .jal a b => [a.setWidth 32, b.setWidth 32]
  | .jalr a b c => [a.setWidth 32, b.setWidth 32, c.setWidth 32]
  | .beq a b c => [a.setWidth 32, b.setWidth 32, c.setWidth 32]
  | .bne a b c => [a.setWidth 32, b.setWidth 32, c.setWidth 32]
  | .blt a b c => [a.setWidth 32, b.setWidth 32, c.setWidth 32]
  | .bge a b c => [a.setWidth 32, b.setWidth 32, c.setWidth 32]
  | .bltu a b c => [a.setWidth 32, b.setWidth 32, c.setWidth 32]
  | .bgeu a b c => [a.setWidth 32, b.setWidth 32, c.setWidth 32]
  | .lb a b c => [a.setWidth 32, b.setWidth 32, c.setWidth 32]
  | .lh a b c => [a.setWidth 32, b.setWidth 32, c.setWidth 32]
  | .lw a b c => [a.setWidth 32, b.setWidth 32, c.setWidth 32]
  | .ld a b c => [a.setWidth 32, b.setWidth 32, c.setWidth 32]
  | .lbu a b c => [a.setWidth 32, b.setWidth 32, c.setWidth 32]
  | .lhu a b c => [a.setWidth 32, b.setWidth 32, c.setWidth 32]
  | .lwu a b c => [a.setWidth 32, b.setWidth 32, c.setWidth 32]
  | .sb a b c => [a.setWidth 32, b.setWidth 32, c.setWidth 32]
  | .sh a b c => [a.setWidth 32, b.setWidth 32, c.setWidth 32]
  | .sw a b c => [a.setWidth 32, b.setWidth 32, c.setWidth 32]
  | .sd a b c => [a.setWidth 32, b.setWidth 32, c.setWidth 32]
  | .mul a b c => [a.setWidth 32, b.setWidth 32, c.setWidth 32]
  | .mulh a b c => [a.setWidth 32, b.setWidth 32, c.setWidth 32]
  | .mulhsu a b c => [a.setWidth 32, b.setWidth 32, c.setWidth 32]
  | .mulhu a b c => [a.setWidth 32, b.setWidth 32, c.setWidth 32]
  | .div a b c => [a.setWidth 32, b.setWidth 32, c.setWidth 32]
  | .divu a b c => [a.setWidth 32, b.setWidth 32, c.setWidth 32]
  | .rem a b c => [a.setWidth 32, b.setWidth 32, c.setWidth 32]
  | .remu a b c => [a.setWidth 32, b.setWidth 32, c.setWidth 32]
  | .mulw a b c => [a.setWidth 32, b.setWidth 32, c.setWidth 32]
  | .divw a b c => [a.setWidth 32, b.setWidth 32, c.setWidth 32]
  | .divuw a b c => [a.setWidth 32, b.setWidth 32, c.setWidth 32]
  | .remw a b c => [a.setWidth 32, b.setWidth 32, c.setWidth 32]
  | .remuw a b c => [a.setWidth 32, b.setWidth 32, c.setWidth 32]
  | .lrW a b c d => [a.setWidth 32, b.setWidth 32, c.setWidth 32, d.setWidth 32]
  | .scW a b c d e => [a.setWidth 32, b.setWidth 32, c.setWidth 32, d.setWidth 32, e.setWidth 32]
  | .amoswapW a b c d e => [a.setWidth 32, b.setWidth 32, c.setWidth 32, d.setWidth 32, e.setWidth 32]
  | .amoaddW a b c d e => [a.setWidth 32, b.setWidth 32, c.setWidth 32, d.setWidth 32, e.setWidth 32]
  | .amoxorW a b c d e => [a.setWidth 32, b.setWidth 32, c.setWidth 32, d.setWidth 32, e.setWidth 32]
  | .amoandW a b c d e => [a.setWidth 32, b.setWidth 32, c.setWidth 32, d.setWidth 32, e.setWidth 32]
  | .amoorW a b c d e => [a.setWidth 32, b.setWidth 32, c.setWidth 32, d.setWidth 32, e.setWidth 32]
  | .amominW a b c d e => [a.setWidth 32, b.setWidth 32, c.setWidth 32, d.setWidth 32, e.setWidth 32]
  | .amomaxW a b c d e => [a.setWidth 32, b.setWidth 32, c.setWidth 32, d.setWidth 32, e.setWidth 32]
  | .amominuW a b c d e => [a.setWidth 32, b.setWidth 32, c.setWidth 32, d.setWidth 32, e.setWidth 32]
  | .amomaxuW a b c d e => [a.setWidth 32, b.setWidth 32, c.setWidth 32, d.setWidth 32, e.setWidth 32]
  | .lrD a b c d => [a.setWidth 32, b.setWidth 32, c.setWidth 32, d.setWidth 32]
  | .scD a b c d e => [a.setWidth 32, b.setWidth 32, c.setWidth 32, d.setWidth 32, e.setWidth 32]
  | .amoswapD a b c d e => [a.setWidth 32, b.setWidth 32, c.setWidth 32, d.setWidth 32, e.setWidth 32]
  | .amoaddD a b c d e => [a.setWidth 32, b.setWidth 32, c.setWidth 32, d.setWidth 32, e.setWidth 32]
  | .amoxorD a b c d e => [a.setWidth 32, b.setWidth 32, c.setWidth 32, d.setWidth 32, e.setWidth 32]
  | .amoandD a b c d e => [a.setWidth 32, b.setWidth 32, c.setWidth 32, d.setWidth 32, e.setWidth 32]
  | .amoorD a b c d e => [a.setWidth 32, b.setWidth 32, c.setWidth 32, d.setWidth 32, e.setWidth 32]
  | .amominD a b c d e => [a.setWidth 32, b.setWidth 32, c.setWidth 32, d.setWidth 32, e.setWidth 32]
  | .amomaxD a b c d e => [a.setWidth 32, b.setWidth 32, c.setWidth 32, d.setWidth 32, e.setWidth 32]
  | .amominuD a b c d e => [a.setWidth 32, b.setWidth 32, c.setWidth 32, d.setWidth 32, e.setWidth 32]
  | .amomaxuD a b c d e => [a.setWidth 32, b.setWidth 32, c.setWidth 32, d.setWidth 32, e.setWidth 32]
  | .csrrw a b c => [a.setWidth 32, b.setWidth 32, c.setWidth 32]
  | .csrrs a b c => [a.setWidth 32, b.setWidth 32, c.setWidth 32]
  | .csrrc a b c => [a.setWidth 32, b.setWidth 32, c.setWidth 32]
  | .csrrwi a b c => [a.setWidth 32, b.setWidth 32, c.setWidth 32]
  | .csrrsi a b c => [a.setWidth 32, b.setWidth 32, c.setWidth 32]
  | .csrrci a b c => [a.setWidth 32, b.setWidth 32, c.setWidth 32]
  | .fence a b c d e => [a.setWidth 32, b.setWidth 32, c.setWidth 32, d.setWidth 32, e.setWidth 32]
  | .fenceI a b c => [a.setWidth 32, b.setWidth 32, c.setWidth 32]
  | .ecall => []
  | .ebreak => []
  | .sret => []
  | .mret => []
  | .wfi => []
  | .sfenceVma a b => [a.setWidth 32, b.setWidth 32]
  | .cAddi4spn a b => [a.setWidth 32, b.setWidth 32]
  | .cFld a b c => [a.setWidth 32, b.setWidth 32, c.setWidth 32]
  | .cLw a b c => [a.setWidth 32, b.setWidth 32, c.setWidth 32]
  | .cLd a b c => [a.setWidth 32, b.setWidth 32, c.setWidth 32]
  | .cFsd a b c => [a.setWidth 32, b.setWidth 32, c.setWidth 32]
  | .cSw a b c => [a.setWidth 32, b.setWidth 32, c.setWidth 32]
  | .cSd a b c => [a.setWidth 32, b.setWidth 32, c.setWidth 32]
  | .cAddi a b => [a.setWidth 32, b.setWidth 32]
  | .cAddiw a b => [a.setWidth 32, b.setWidth 32]
  | .cLi a b => [a.setWidth 32, b.setWidth 32]
  | .cAddi16sp a => [a.setWidth 32]
  | .cLui a b => [a.setWidth 32, b.setWidth 32]
  | .cSrli a b => [a.setWidth 32, b.setWidth 32]
  | .cSrai a b => [a.setWidth 32, b.setWidth 32]
  | .cAndi a b => [a.setWidth 32, b.setWidth 32]
  | .cSub a b => [a.setWidth 32, b.setWidth 32]
  | .cXor a b => [a.setWidth 32, b.setWidth 32]
  | .cOr a b => [a.setWidth 32, b.setWidth 32]
  | .cAnd a b => [a.setWidth 32, b.setWidth 32]
  | .cSubw a b => [a.setWidth 32, b.setWidth 32]
  | .cAddw a b => [a.setWidth 32, b.setWidth 32]
  | .cJ a => [a.setWidth 32]
  | .cBeqz a b => [a.setWidth 32, b.setWidth 32]
  | .cBnez a b => [a.setWidth 32, b.setWidth 32]
  | .cSlli a b => [a.setWidth 32, b.setWidth 32]
  | .cFldsp a b => [a.setWidth 32, b.setWidth 32]
  | .cLwsp a b => [a.setWidth 32, b.setWidth 32]
  | .cLdsp a b => [a.setWidth 32, b.setWidth 32]
  | .cJr a => [a.setWidth 32]
  | .cMv a b => [a.setWidth 32, b.setWidth 32]
  | .cEbreak => []
  | .cJalr a => [a.setWidth 32]
  | .cAdd a b => [a.setWidth 32, b.setWidth 32]
  | .cFsdsp a b => [a.setWidth 32, b.setWidth 32]
  | .cSwsp a b => [a.setWidth 32, b.setWidth 32]
  | .cSdsp a b => [a.setWidth 32, b.setWidth 32]
  | .flw a b c => [a.setWidth 32, b.setWidth 32, c.setWidth 32]
  | .fld a b c => [a.setWidth 32, b.setWidth 32, c.setWidth 32]
  | .fsw a b c => [a.setWidth 32, b.setWidth 32, c.setWidth 32]
  | .fsd a b c => [a.setWidth 32, b.setWidth 32, c.setWidth 32]
  | .fmvXW a b => [a.setWidth 32, b.setWidth 32]
  | .fmvWX a b => [a.setWidth 32, b.setWidth 32]
  | .fmvXD a b => [a.setWidth 32, b.setWidth 32]
  | .fmvDX a b => [a.setWidth 32, b.setWidth 32]
  | .faddS a b c d => [a.setWidth 32, b.setWidth 32, c.setWidth 32, d.setWidth 32]
  | .fsubS a b c d => [a.setWidth 32, b.setWidth 32, c.setWidth 32, d.setWidth 32]
  | .fmulS a b c d => [a.setWidth 32, b.setWidth 32, c.setWidth 32, d.setWidth 32]
  | .fdivS a b c d => [a.setWidth 32, b.setWidth 32, c.setWidth 32, d.setWidth 32]
  | .fsqrtS a b c => [a.setWidth 32, b.setWidth 32, c.setWidth 32]
  | .fsgnjS a b c => [a.setWidth 32, b.setWidth 32, c.setWidth 32]
  | .fsgnjnS a b c => [a.setWidth 32, b.setWidth 32, c.setWidth 32]
  | .fsgnjxS a b c => [a.setWidth 32, b.setWidth 32, c.setWidth 32]
  | .fminS a b c => [a.setWidth 32, b.setWidth 32, c.setWidth 32]
  | .fmaxS a b c => [a.setWidth 32, b.setWidth 32, c.setWidth 32]
  | .feqS a b c => [a.setWidth 32, b.setWidth 32, c.setWidth 32]
  | .fltS a b c => [a.setWidth 32, b.setWidth 32, c.setWidth 32]
  | .fleS a b c => [a.setWidth 32, b.setWidth 32, c.setWidth 32]
  | .fclassS a b => [a.setWidth 32, b.setWidth 32]
  | .fcvtWS a b c => [a.setWidth 32, b.setWidth 32, c.setWidth 32]
  | .fcvtWuS a b c => [a.setWidth 32, b.setWidth 32, c.setWidth 32]
  | .fcvtLS a b c => [a.setWidth 32, b.setWidth 32, c.setWidth 32]
  | .fcvtLuS a b c => [a.setWidth 32, b.setWidth 32, c.setWidth 32]
  | .fcvtSW a b c => [a.setWidth 32, b.setWidth 32, c.setWidth 32]
  | .fcvtSWu a b c => [a.setWidth 32, b.setWidth 32, c.setWidth 32]
  | .fcvtSL a b c => [a.setWidth 32, b.setWidth 32, c.setWidth 32]
  | .fcvtSLu a b c => [a.setWidth 32, b.setWidth 32, c.setWidth 32]
  | .faddD a b c d => [a.setWidth 32, b.setWidth 32, c.setWidth 32, d.setWidth 32]
  | .fsubD a b c d => [a.setWidth 32, b.setWidth 32, c.setWidth 32, d.setWidth 32]
  | .fmulD a b c d => [a.setWidth 32, b.setWidth 32, c.setWidth 32, d.setWidth 32]
  | .fdivD a b c d => [a.setWidth 32, b.setWidth 32, c.setWidth 32, d.setWidth 32]
  | .fsqrtD a b c => [a.setWidth 32, b.setWidth 32, c.setWidth 32]
  | .fsgnjD a b c => [a.setWidth 32, b.setWidth 32, c.setWidth 32]
  | .fsgnjnD a b c => [a.setWidth 32, b.setWidth 32, c.setWidth 32]
  | .fsgnjxD a b c => [a.setWidth 32, b.setWidth 32, c.setWidth 32]
  | .fminD a b c => [a.setWidth 32, b.setWidth 32, c.setWidth 32]
  | .fmaxD a b c => [a.setWidth 32, b.setWidth 32, c.setWidth 32]
  | .feqD a b c => [a.setWidth 32, b.setWidth 32, c.setWidth 32]
  | .fltD a b c => [a.setWidth 32, b.setWidth 32, c.setWidth 32]
  | .fleD a b c => [a.setWidth 32, b.setWidth 32, c.setWidth 32]
  | .fclassD a b => [a.setWidth 32, b.setWidth 32]
  | .fcvtWD a b c => [a.setWidth 32, b.setWidth 32, c.setWidth 32]
  | .fcvtWuD a b c => [a.setWidth 32, b.setWidth 32, c.setWidth 32]
  | .fcvtLD a b c => [a.setWidth 32, b.setWidth 32, c.setWidth 32]
  | .fcvtLuD a b c => [a.setWidth 32, b.setWidth 32, c.setWidth 32]
  | .fcvtDW a b c => [a.setWidth 32, b.setWidth 32, c.setWidth 32]
  | .fcvtDWu a b c => [a.setWidth 32, b.setWidth 32, c.setWidth 32]
  | .fcvtDL a b c => [a.setWidth 32, b.setWidth 32, c.setWidth 32]
  | .fcvtDLu a b c => [a.setWidth 32, b.setWidth 32, c.setWidth 32]
  | .fcvtSD a b c => [a.setWidth 32, b.setWidth 32, c.setWidth 32]
  | .fcvtDS a b c => [a.setWidth 32, b.setWidth 32, c.setWidth 32]
  | .fmaddS a b c d e => [a.setWidth 32, b.setWidth 32, c.setWidth 32, d.setWidth 32, e.setWidth 32]
  | .fmsubS a b c d e => [a.setWidth 32, b.setWidth 32, c.setWidth 32, d.setWidth 32, e.setWidth 32]
  | .fnmsubS a b c d e => [a.setWidth 32, b.setWidth 32, c.setWidth 32, d.setWidth 32, e.setWidth 32]
  | .fnmaddS a b c d e => [a.setWidth 32, b.setWidth 32, c.setWidth 32, d.setWidth 32, e.setWidth 32]
  | .fmaddD a b c d e => [a.setWidth 32, b.setWidth 32, c.setWidth 32, d.setWidth 32, e.setWidth 32]
  | .fmsubD a b c d e => [a.setWidth 32, b.setWidth 32, c.setWidth 32, d.setWidth 32, e.setWidth 32]
  | .fnmsubD a b c d e => [a.setWidth 32, b.setWidth 32, c.setWidth 32, d.setWidth 32, e.setWidth 32]
  | .fnmaddD a b c d e => [a.setWidth 32, b.setWidth 32, c.setWidth 32, d.setWidth 32, e.setWidth 32]
  | .hfenceVvma a b => [a.setWidth 32, b.setWidth 32]
  | .hfenceGvma a b => [a.setWidth 32, b.setWidth 32]
  | .hlvB a b => [a.setWidth 32, b.setWidth 32]
  | .hlvBu a b => [a.setWidth 32, b.setWidth 32]
  | .hlvH a b => [a.setWidth 32, b.setWidth 32]
  | .hlvHu a b => [a.setWidth 32, b.setWidth 32]
  | .hlvxHu a b => [a.setWidth 32, b.setWidth 32]
  | .hlvW a b => [a.setWidth 32, b.setWidth 32]
  | .hlvWu a b => [a.setWidth 32, b.setWidth 32]
  | .hlvxWu a b => [a.setWidth 32, b.setWidth 32]
  | .hlvD a b => [a.setWidth 32, b.setWidth 32]
  | .hsvB a b => [a.setWidth 32, b.setWidth 32]
  | .hsvH a b => [a.setWidth 32, b.setWidth 32]
  | .hsvW a b => [a.setWidth 32, b.setWidth 32]
  | .hsvD a b => [a.setWidth 32, b.setWidth 32]
  | .cboInval a => [a.setWidth 32]
  | .cboClean a => [a.setWidth 32]
  | .cboFlush a => [a.setWidth 32]
  | .cboZero a => [a.setWidth 32]
  | .vectorOp => []
  | .vectorLoadW8 => []
  | .vectorLoadW16 => []
  | .vectorLoadW32 => []
  | .vectorLoadW64 => []
  | .vectorStoreW8 => []
  | .vectorStoreW16 => []
  | .vectorStoreW32 => []
  | .vectorStoreW64 => []

/-! ### Decoding (R184, R185, R187, R200, R202) -/

/-- `Decode(mode, word)` in a table: the instruction of the unique matching definition (R185), with the values its handler reads;
`handlerValues` gives one for each, so `Instr.ofOperands` always builds it. A table with a definition that its handler cannot take
is refused when it is loaded (R198). DESIGN CHOICE, unsafe: in a table that no load has checked such a definition decodes all the
same, an operand it lacks being 0 and the bits of a value beyond the handler's width dropped (log entry 20). -/
def decodeIn (table : List Definition) (mode : Priv) (len : Nat) (word : Insn) : Except Reject Instr :=
  match Registry.get table mode len word with
  | .error e => .error e
  | .ok d =>
    match Instr.ofOperands d.op (d.handlerValues word) with
    | some i => .ok i
    | none => .error .noDefinition

/-- `Decode(mode, word)` in the default table (R185). -/
def decodeWord (mode : Priv) (len : Nat) (word : Insn) : Except Reject Instr := decodeIn table mode len word

/-- A 16-bit parcel, the byte at the lower address in its low bits (R102). -/
def parcel (b0 b1 : Byte) : Insn := b0.setWidth 32 ||| (b1.setWidth 32 <<< 8)

/-- A 32-bit word of two parcels, the low parcel first (R102, R200). -/
def joinParcels (lo hi : Insn) : Insn := lo ||| (hi <<< 16)

/-- The instruction at the head of a list of bytes, read in a mode, with the bytes after it (R102, R187, R200). -/
def decodeBytes (mode : Priv) : List Byte → Except Reject (Instr × List Byte)
  | b0 :: b1 :: rest =>
    let lo := parcel b0 b1
    if wordLength lo == 2 then
      match decodeWord mode 2 lo with
      | .ok i => .ok (i, rest)
      | .error e => .error e
    else
      match rest with
      | b2 :: b3 :: rest' =>
        match decodeWord mode 4 (joinParcels lo (parcel b2 b3)) with
        | .ok i => .ok (i, rest')
        | .error e => .error e
      | _ => .error .truncated
  | _ => .error .truncated

/-! ### Encoding (R186) -/

/-- A word with each operand's value written into its segments, in order (R186). -/
def fillOperands : List Operand → List Insn → Insn → Insn
  | o :: os, v :: vs, word => fillOperands os vs (o.encode v word)
  | _, _, word => word

/-- The definition an instruction is encoded by. -/
def Instr.definition (i : Instr) : Definition := row i.op

/-- The length of an instruction in bytes: 2 or 4 (R10, R182). -/
def Instr.length (i : Instr) : Nat := i.definition.length

/-- The word of an instruction: the fixed bits of its definition with the operands written in (R182, R186). -/
def encode (i : Instr) : Insn := fillOperands i.definition.operands i.operands i.definition.bits

/-- The first `n` bytes of a word, least significant first (R102). -/
def wordBytes : Nat → Insn → List Byte
  | 0, _ => []
  | n + 1, w => w.setWidth 8 :: wordBytes n (w >>> 8)

/-- The bytes of an instruction, as they lie in memory (R102). -/
def encodeBytes (i : Instr) : List Byte := wordBytes i.length (encode i)

/-- The instruction the decoder reads, in machine mode, from an instruction whose bits are `w`, bit 0 the least
significant bit of the first parcel; bits from `nbits` up are 0 (R102, R182). -/
def decodeTableWord (nbits w : Nat) : Option Instr :=
  match decodeBytes .machine (wordBytes 4 (BitVec.ofNat 32 (w % 2 ^ nbits))) with
  | .ok (i, _) => some i
  | .error _ => none

end Sys2Proof
end

