-- ==== Sys2Proof/Machine/Defaults.lean ====
section
/-! DEFINITION. The default parameters of R11: the default `CSR_TABLE` (R52), and the configuration the model starts from; with
the lookup of an address in a CSR table and the reset values a table gives. -/

namespace Sys2Proof

/-- The unprivileged addresses of the default table (R52). -/
def csrTableU : List CsrRow :=
  [⟨0x001, 0x1F, .view 0x003, .value 0⟩,  -- fflags
   ⟨0x002, 0x7, .computed .frm, .value 0⟩,
   ⟨0x003, 0xFF, .storage, .value 0⟩,  -- fcsr
   ⟨0xC00, 0, .computed .cycle, .value 0⟩,
   ⟨0xC01, 0, .computed .time, .value 0⟩,
   ⟨0xC02, 0, .computed .instret, .value 0⟩]

/-- The supervisor addresses of the default table (R52). DESIGN CHOICE, unsafe: R666 says that only M-mode software, through
`mip`, can raise a supervisor timer interrupt; the table, and R634, let S-mode write its latch bit STIP through `sip`, and the
model follows them (log entry 24). -/
def csrTableS : List CsrRow :=
  [⟨0x100, 0x80000003000DE762, .view 0x300, .value 0⟩,  -- sstatus
   ⟨0x104, 0x222, .view 0x304, .value 0⟩,  -- sie
   ⟨0x105, 0xFFFFFFFFFFFFFFFF, .storage, .value 0⟩,  -- stvec
   ⟨0x106, 0xFFFFFFFF, .storage, .value 0⟩,  -- scounteren
   ⟨0x140, 0xFFFFFFFFFFFFFFFF, .storage, .value 0⟩,  -- sscratch
   ⟨0x141, 0xFFFFFFFFFFFFFFFE, .storage, .value 0⟩,  -- sepc
   ⟨0x142, 0xFFFFFFFFFFFFFFFF, .storage, .value 0⟩,  -- scause
   ⟨0x143, 0xFFFFFFFFFFFFFFFF, .storage, .value 0⟩,  -- stval
   ⟨0x144, 0x222, .view 0x344, .value 0⟩,  -- sip
   ⟨0x180, 0xFFFFFFFFFFFFFFFF, .storage, .value 0⟩]  -- satp

/-- The machine addresses of the default table (R52). -/
def csrTableM : List CsrRow :=
  [⟨0x300, 0x7E79AA, .storage, .value 0xA00000000⟩,  -- mstatus
   ⟨0x301, 0, .storage, .value 0x800000000014112D⟩,  -- misa
   ⟨0x302, 0xB3FF, .storage, .value 0⟩,  -- medeleg
   ⟨0x303, 0x222, .storage, .value 0⟩,  -- mideleg
   ⟨0x304, 0xAAA, .storage, .value 0⟩,  -- mie
   ⟨0x305, 0xFFFFFFFFFFFFFFFF, .storage, .value 0⟩,  -- mtvec
   ⟨0x306, 0xFFFFFFFF, .storage, .value 0⟩,  -- mcounteren
   ⟨0x340, 0xFFFFFFFFFFFFFFFF, .storage, .value 0⟩,  -- mscratch
   ⟨0x341, 0xFFFFFFFFFFFFFFFE, .storage, .value 0⟩,  -- mepc
   ⟨0x342, 0xFFFFFFFFFFFFFFFF, .storage, .value 0⟩,  -- mcause
   ⟨0x343, 0xFFFFFFFFFFFFFFFF, .storage, .value 0⟩,  -- mtval
   ⟨0x344, 0x222, .computed .mip, .value 0⟩,
   ⟨0xF11, 0, .storage, .value 0⟩,  -- mvendorid
   ⟨0xF12, 0, .storage, .value 0⟩,  -- marchid
   ⟨0xF13, 0, .storage, .value 0⟩,  -- mimpid
   ⟨0xF14, 0, .storage, .hartid⟩,  -- mhartid
   ⟨0xF15, 0, .storage, .value 0⟩]  -- mconfigptr

/-- The default `CSR_TABLE` (R11, R52). -/
def csrTable : List CsrRow := csrTableU ++ csrTableS ++ csrTableM

/-- The row of an address; an address not in the table is undefined (R50, R52). DESIGN CHOICE: of two rows with one address the
first counts (log entry 12). -/
def csrFind (tbl : List CsrRow) (a : BitVec 12) : Option CsrRow := tbl.find? fun r => r.addr == a

/-! ### Storage registers and their reset values -/

/-- The storage register at an address (R52). -/
def CsrReg.ofAddr (a : BitVec 12) : CsrReg :=
  match a.toNat with
  | 0x003 => .fcsr
  | 0x105 => .stvec
  | 0x106 => .scounteren
  | 0x140 => .sscratch
  | 0x141 => .sepc
  | 0x142 => .scause
  | 0x143 => .stval
  | 0x180 => .satp
  | 0x300 => .mstatus
  | 0x301 => .misa
  | 0x302 => .medeleg
  | 0x303 => .mideleg
  | 0x304 => .mie
  | 0x305 => .mtvec
  | 0x306 => .mcounteren
  | 0x340 => .mscratch
  | 0x341 => .mepc
  | 0x342 => .mcause
  | 0x343 => .mtval
  | 0xF11 => .mvendorid
  | 0xF12 => .marchid
  | 0xF13 => .mimpid
  | 0xF14 => .mhartid
  | 0xF15 => .mconfigptr
  | _ => .other a

/-- The value a table's row gives a storage register at reset (R52, R68). -/
def CsrReset.eval (hartid : Word) : CsrReset → Word
  | .value v => v
  | .hartid => hartid

/-- The value of the storage register at an address after reset: its row's; 0 where the table has no storage register there
(R68, log entry 12). -/
def csrResetValue (tbl : List CsrRow) (hartid : Word) (a : BitVec 12) : Word :=
  match csrFind tbl a with
  | some ⟨_, _, .storage, r⟩ => r.eval hartid
  | _ => 0

/-- The storage registers a table declares beside those of the default table, each at its reset value. -/
def csrResetOthers (tbl : List CsrRow) (hartid : Word) : List (BitVec 12 × Word) :=
  (tbl.filter fun r => r.kind == .storage && CsrReg.ofAddr r.addr == .other r.addr).map fun r =>
    (r.addr, r.reset.eval hartid)

/-! ### The default parameters -/

/-- The default parameters (R11, R706). DESIGN CHOICE, unsafe: R11 gives no default for `NUM_HARTS`, `RESET_PC`,
`DTB_ADDR` and `BUS_MAP`; the model names one hart, the RAM range of R130's test programs with `RESET_PC` at its base, and
a device tree in an address of its own (log entry 3). -/
def Config.default : Config where
  numHarts := 1
  byteOrder := .little
  resetPc := 0x80000000
  dtbAddr := 0x87E00000
  busMap := [{ base := 0x80000000, size := 0x200000, kind := .ram }]
  csrTable := Sys2Proof.csrTable
  isaTable := table
  fpMemoryOps := .implemented
  tlbMayDrop := true
  uIrqEnable := .both

end Sys2Proof
end

