-- ==== Sys2Proof/Machine/State.lean ====
section
/-! DEFINITION. The state: everything the spec gives the machine (R79), as plain data, with the model's own fields for the
environment's moves and the free values; the reasons a step stops; and the state after reset (R700 to R709). -/

namespace Sys2Proof.Machine

/-- Why the model has no next state (R690). Each stop is safe: where the source goes on, no statement about its
continuation can be proved. -/
inductive Fault where
  /-- A bus access no range of `BUS_MAP` answers, or that runs past the end of one: fetch, load, store, atomic, page-table
  read and A/D write-back (R131). Safe. -/
  | busFault
  /-- A load or store that crosses a 4 KiB boundary while translation is on (R104, R105). Safe. -/
  | misalignedPageCross
  /-- A translation under a `satp` MODE other than 0, 8, 9 and 10 (R111). Safe. -/
  | unsupportedSatpMode
  /-- A trap whose vector base is 0, before any state changes (R647). Safe. -/
  | noTrapHandler
  /-- `mret` with MPP = 2, which names no mode (R426). Safe. -/
  | illegalPrivilege
  deriving DecidableEq, Repr

/-- Why the model gives no meaning to a step or a configuration (R691). Each is safe: nothing is claimed of it. -/
inductive Refusal where
  /-- An arm of the dispatcher without a meaning. Safe. No arm raises it when the model is complete. -/
  | notModelled (mnemonic : String)
  /-- Every step under `BYTE_ORDER = big` (R101). Safe. -/
  | bigEndian
  /-- `ebreak` or `c.ebreak` with semihosting enabled: host I/O the source does not describe (R424). Safe. -/
  | semihostingCall
  /-- An instruction table with a malformed or ambiguous definition or one without a handler, at load time; and a step that two
  definitions match (R180, R185, R198). Safe. -/
  | ambiguousTable
  /-- A CSR table with a chain of views that has no terminal address, a cyclic one above all, at load time; and an access to such
  a chain (R67, log entry 22). Safe. -/
  | aliasCycle
  deriving DecidableEq, Repr

/-- The interrupt lines into a hart (R9, R634). -/
structure IrqLines where
  /-- `irq.MSIP`. -/
  msip : Bool
  /-- `irq.MTIP`. -/
  mtip : Bool
  /-- `irq.SEIP`. -/
  seip : Bool
  /-- `irq.MEIP`. -/
  meip : Bool
  deriving DecidableEq, Repr

/-- The stored values of the CSR file, and the software-written latch of `mip` (R52, R54, R79). -/
structure CsrFile where
  /-- 0x003, floating-point control and status: `frm` in 7:5, `fflags` in 4:0 (R52, R59). -/
  fcsr : Word
  /-- 0x105, supervisor trap vector (R52, R56). -/
  stvec : Word
  /-- 0x106, supervisor counter enable; stored, no effect (R52). -/
  scounteren : Word
  /-- 0x140, supervisor scratch (R52). -/
  sscratch : Word
  /-- 0x141, supervisor saved pc (R52, R57). -/
  sepc : Word
  /-- 0x142, supervisor cause (R52, R57). -/
  scause : Word
  /-- 0x143, supervisor trap value (R52, R57). -/
  stval : Word
  /-- 0x180, paging mode, address-space id and root page number (R52, R55). -/
  satp : Word
  /-- 0x300, machine status (R52, R53). -/
  mstatus : Word
  /-- 0x301, ISA description; not writable (R52). -/
  misa : Word
  /-- 0x302, exception delegation (R52, R58). -/
  medeleg : Word
  /-- 0x303, interrupt delegation (R52, R58). -/
  mideleg : Word
  /-- 0x304, interrupt enables (R52, R54). -/
  mie : Word
  /-- 0x305, machine trap vector (R52, R56). -/
  mtvec : Word
  /-- 0x306, machine counter enable; stored, no effect (R52). -/
  mcounteren : Word
  /-- 0x340, machine scratch (R52). -/
  mscratch : Word
  /-- 0x341, machine saved pc (R52, R57). -/
  mepc : Word
  /-- 0x342, machine cause (R52, R57). -/
  mcause : Word
  /-- 0x343, machine trap value (R52, R57). -/
  mtval : Word
  /-- 0xF11, vendor id; not writable (R52). -/
  mvendorid : Word
  /-- 0xF12, architecture id; not writable (R52). -/
  marchid : Word
  /-- 0xF13, implementation id; not writable (R52). -/
  mimpid : Word
  /-- 0xF14, hart id; not writable (R52, R668). -/
  mhartid : Word
  /-- 0xF15, configuration pointer; not writable (R52). -/
  mconfigptr : Word
  /-- The latch of `mip`: SSIP in bit 1, STIP in bit 5, SEIP in bit 9 (R54). -/
  mipLatch : Word
  /-- The storage registers of a `CSR_TABLE` that the default table does not have, by address (R11, R50). -/
  others : List (BitVec 12 × Word)
  deriving DecidableEq, Repr

/-- One TLB entry (R75). -/
structure TlbEntry where
  /-- The physical address of its page-table entry. -/
  pteAddr : Word
  /-- The cached page-table entry. -/
  pte : Word
  /-- The virtual page number of the access that created it. -/
  vpn : Nat
  /-- The address-space id it is stored under: 0 for a global entry. -/
  asidKey : Nat
  /-- The virtual base of its page. -/
  vbase : Word
  /-- The physical base of its page. -/
  pbase : Word
  /-- The size of its page in bytes: 4 KiB times 512 to the level. -/
  size : Nat
  /-- The virtual page numbers the map still holds it under, as half-open intervals (R121, log entry 8). -/
  keys : List (Nat × Nat)
  deriving DecidableEq, Repr

/-- The state of one hart (R79, R668). -/
structure Hart where
  /-- The general registers (R30); entry 0 is never read and never written (R31). -/
  x : Vector Word 32
  /-- The floating-point registers (R34). -/
  f : Vector Word 32
  /-- The program counter (R40). -/
  pc : Word
  /-- The current privilege level (R42). -/
  priv : Priv
  /-- The WFI flag (R43). -/
  sleeping : Bool
  /-- The semihosting flag (R44). -/
  semihosting : Bool
  /-- The CSR file (R50 to R59). -/
  csr : CsrFile
  /-- The TLB, newest entry first (R75, R76). -/
  tlb : List TlbEntry
  /-- The hart's index in the Machine's ordered hart list (R9, R668). -/
  hartid : Word
  /-- The interrupt lines into the hart: an input (R9, R634). -/
  lines : IrqLines
  deriving DecidableEq, Repr

/-- One move of the environment between two steps (R9, R141, R670, R700, R707, R724; log entry 4). -/
inductive EnvEvent where
  /-- The platform sets the interrupt lines of the current hart (R634). -/
  | lines (l : IrqLines)
  /-- The platform sets the time value (R665). -/
  | mtime (v : Word)
  /-- Another agent writes one byte of memory: a device, the loader, a debug patch (R5, R146, R670). -/
  | store (pa : Word) (b : Byte)
  /-- The hart with this id is the next to step (R141). -/
  | select (hartid : Word)
  /-- The current hart is reset (R700). -/
  | reset
  deriving DecidableEq, Repr

/-- One access to a device window (R109, R667). -/
structure BusAccess where
  /-- A write, not a read. -/
  isWrite : Bool
  /-- The physical address of its first byte. -/
  addr : Word
  /-- Its size in bytes. -/
  size : Nat
  /-- The value written, or the value the device answered. -/
  value : Word
  deriving DecidableEq, Repr

/-- The length of an instruction: 2 or 4 bytes (R14, R200). -/
inductive InsnLength where
  | two | four
  deriving DecidableEq, Repr

/-- The machine: its harts, one of them the next to step, and what they share (R8, R79). -/
structure State where
  /-- The hart that steps next. -/
  hart : Hart
  /-- The other harts of the Machine (R668). -/
  others : List Hart
  /-- Physical memory: the bytes that differ from what an unlisted address reads as, addresses rising (R100). -/
  mem : List Host.Cell
  /-- The time value the platform supplies (R9, R665). -/
  mtime : Word
  /-- `len`: the length of the instruction whose handler runs, which the step hands to the handler (R14, R203, log entry 26). -/
  len : InsnLength
  /-- The model's own: the index of the next free value (R14, log entry 5). -/
  draws : Nat
  /-- The model's own: the environment's moves before each coming step (log entry 4). -/
  schedule : List (List EnvEvent)
  /-- The model's own: the accesses made to device windows, newest first (R109, log entry 9). -/
  busLog : List BusAccess
  /-- The parameters (R11). -/
  cfg : Config
  deriving DecidableEq, Repr

/-- What a byte of memory that nothing has written reads as. DESIGN CHOICE, unsafe: the block does not initialize memory
(R707) and the spec gives it no value (log entry 2). -/
def Memory.unlisted : Byte := 0

/-- Every address of the list is above the bound `lo`, addresses rise strictly, and no entry is what an unlisted address
reads as. -/
def Memory.wfFrom (lo : Option Nat) : List Host.Cell → Bool
  | [] => true
  | (a, b) :: rest =>
    (match lo with
      | none => true
      | some l => decide (l < a)) && b != Memory.unlisted && Memory.wfFrom (some a) rest

/-- The canonical form of memory: addresses strictly rising, no entry equal to what an unlisted address reads as. -/
def Memory.wf (m : List Host.Cell) : Bool := Memory.wfFrom none m

/-- The CSR file after reset, from a table: every register at its row's reset value, the latch of `mip` 0 (R52, R68, R702). -/
def CsrFile.reset (tbl : List CsrRow) (hartid : Word) : CsrFile where
  fcsr := csrResetValue tbl hartid 0x003
  stvec := csrResetValue tbl hartid 0x105
  scounteren := csrResetValue tbl hartid 0x106
  sscratch := csrResetValue tbl hartid 0x140
  sepc := csrResetValue tbl hartid 0x141
  scause := csrResetValue tbl hartid 0x142
  stval := csrResetValue tbl hartid 0x143
  satp := csrResetValue tbl hartid 0x180
  mstatus := csrResetValue tbl hartid 0x300
  misa := csrResetValue tbl hartid 0x301
  medeleg := csrResetValue tbl hartid 0x302
  mideleg := csrResetValue tbl hartid 0x303
  mie := csrResetValue tbl hartid 0x304
  mtvec := csrResetValue tbl hartid 0x305
  mcounteren := csrResetValue tbl hartid 0x306
  mscratch := csrResetValue tbl hartid 0x340
  mepc := csrResetValue tbl hartid 0x341
  mcause := csrResetValue tbl hartid 0x342
  mtval := csrResetValue tbl hartid 0x343
  mvendorid := csrResetValue tbl hartid 0xF11
  marchid := csrResetValue tbl hartid 0xF12
  mimpid := csrResetValue tbl hartid 0xF13
  mhartid := csrResetValue tbl hartid 0xF14
  mconfigptr := csrResetValue tbl hartid 0xF15
  mipLatch := 0
  others := csrResetOthers tbl hartid

/-- A hart after reset (R700 to R706). The registers x1 to x9, x12 to x31 and f0 to f31 hold 0: DESIGN CHOICE, unsafe, the
spec gives them no value (R33, R35, log entry 1). The interrupt lines are 0: DESIGN CHOICE (log entry 4). -/
def Hart.reset (cfg : Config) (hartid : Word) : Hart where
  x := ((Vector.replicate 32 0).set 10 hartid).set 11 cfg.dtbAddr
  f := Vector.replicate 32 0
  pc := cfg.resetPc
  priv := .machine
  sleeping := false
  semihosting := false
  csr := CsrFile.reset cfg.csrTable hartid
  tlb := []
  hartid := hartid
  lines := ⟨false, false, false, false⟩

/-- The harts numbered `from` and up, `count` of them, each in its reset state (R668, R708). -/
def Hart.resetList (cfg : Config) : Nat → Nat → List Hart
  | 0, _ => []
  | count + 1, first => Hart.reset cfg (BitVec.ofNat 64 first) :: Hart.resetList cfg count (first + 1)

/-- The machine after reset, for given parameters and initial physical memory, an argument along with `BUS_MAP` and in
canonical form (R700 to R709): every hart in its reset state, hart 0 first (R668), memory as the environment placed it (R707),
no move of the environment scheduled; `len` is 4 (DESIGN CHOICE: no rule gives it a value before a step sets it, log entry 26). DESIGN
CHOICE, unsafe: parameters outside their range, to which R11 and R706 give no
meaning, are taken as they are; a `NUM_HARTS` of 0 gives the one hart that a state always holds, and an odd `RESET_PC` an odd pc
(log entry 13). -/
def State.resetWith (cfg : Config) (mem : List Host.Cell) : State where
  hart := Hart.reset cfg 0
  others := Hart.resetList cfg (cfg.numHarts - 1) 1
  mem := mem
  mtime := 0
  len := .four
  draws := 0
  schedule := []
  busLog := []
  cfg := cfg

/-- The machine right after reset, with the default parameters and nothing placed in memory (R11, R701 to R709). -/
def State.reset : State := State.resetWith Config.default []

end Sys2Proof.Machine
end

