-- ==== Sys2Proof/Machine/Ops.lean ====
section
/-! DEFINITION. The named operations over the state: updates, registers, memory, the physical bus; raising an exception and
taking a trap, as one operation each; returning from a trap. -/

namespace Sys2Proof.Machine

/-- What a step or a meaning answers. -/
abbrev Result := Host.Outcome State Fault Refusal

/-! ### Updates, one for each field -/

/-- The state with the current hart replaced. -/
def State.withHart (s : State) (h : Hart) : State := { s with hart := h }
/-- The state with the current hart's general registers replaced. -/
def State.withX (s : State) (v : Vector Word 32) : State := { s with hart := { s.hart with x := v } }
/-- The state with the current hart's floating-point registers replaced. -/
def State.withF (s : State) (v : Vector Word 32) : State := { s with hart := { s.hart with f := v } }
/-- The state with the current hart's pc replaced. -/
def State.withPc (s : State) (v : Word) : State := { s with hart := { s.hart with pc := v } }
/-- The state with the current hart's privilege level replaced. -/
def State.withPriv (s : State) (v : Priv) : State := { s with hart := { s.hart with priv := v } }
/-- The state with the current hart's WFI flag replaced. -/
def State.withSleeping (s : State) (v : Bool) : State := { s with hart := { s.hart with sleeping := v } }
/-- The state with the current hart's semihosting flag replaced. -/
def State.withSemihosting (s : State) (v : Bool) : State := { s with hart := { s.hart with semihosting := v } }
/-- The state with the current hart's CSR file replaced. -/
def State.withCsr (s : State) (v : CsrFile) : State := { s with hart := { s.hart with csr := v } }
/-- The state with the current hart's TLB replaced. -/
def State.withTlb (s : State) (v : List TlbEntry) : State := { s with hart := { s.hart with tlb := v } }
/-- The state with the current hart's interrupt lines replaced. -/
def State.withLines (s : State) (v : IrqLines) : State := { s with hart := { s.hart with lines := v } }
/-- The state with the other harts replaced. -/
def State.withOthers (s : State) (v : List Hart) : State := { s with others := v }
/-- The state with memory replaced. -/
def State.withMem (s : State) (v : List Host.Cell) : State := { s with mem := v }
/-- The state with the time value replaced. -/
def State.withMtime (s : State) (v : Word) : State := { s with mtime := v }
/-- The state with the length of the running instruction replaced. -/
def State.withLen (s : State) (v : InsnLength) : State := { s with len := v }
/-- The state with the index of the next free value replaced. -/
def State.withDraws (s : State) (v : Nat) : State := { s with draws := v }
/-- The state with the environment's schedule replaced. -/
def State.withSchedule (s : State) (v : List (List EnvEvent)) : State := { s with schedule := v }
/-- The state with the log of device accesses replaced. -/
def State.withBusLog (s : State) (v : List BusAccess) : State := { s with busLog := v }

/-! ### The length of an instruction (R14, R203) -/

/-- A length in bytes. -/
def InsnLength.bytes : InsnLength → Nat
  | .two => 2
  | .four => 4

/-- The length of a fetched word: a fetch answers 2 or 4 (R200). -/
def InsnLength.ofBytes (n : Nat) : InsnLength := if n = 2 then .two else .four

/-! ### Registers (R30 to R35) -/

/-- `x[r]`: GPR `r`; x0 reads 0 (R31). -/
def State.readX (s : State) (r : BitVec 5) : Word := if r = 0 then 0 else s.hart.x[r.toNat]'r.isLt

/-- `x[r] <- v`; a write to x0 is discarded (R31). -/
def State.writeX (s : State) (r : BitVec 5) (v : Word) : State :=
  if r = 0 then s else s.withX (s.hart.x.set r.toNat v r.isLt)

/-- `f[r]`: FPR `r`; f0 is an ordinary register (R34). -/
def State.readF (s : State) (r : BitVec 5) : Word := s.hart.f[r.toNat]'r.isLt

/-- `f[r] <- v` (R34). -/
def State.writeF (s : State) (r : BitVec 5) (v : Word) : State := s.withF (s.hart.f.set r.toNat v r.isLt)

/-- `return pc + len`: the instruction is done and the pc advances by its length, modulo 2^64 (R40, R41, R203). -/
def State.retire (s : State) (len : Nat) : State := s.withPc (s.hart.pc + BitVec.ofNat 64 len)

/-! ### Free values (R14) -/

/-- The next free value. -/
def State.draw (s : State) : Word := Config.draw s.draws

/-- The state after a free value is taken. -/
def State.nextDraw (s : State) : State := s.withDraws (s.draws + 1)

/-! ### The storage registers of the CSR file (R50, R62) -/

/-- The value at an address, among the storage registers that the default table does not have. -/
def othersGet : List (BitVec 12 × Word) → BitVec 12 → Word
  | [], _ => 0
  | (k, w) :: rest, a => if k = a then w else othersGet rest a

/-- Those registers with the value at an address replaced. -/
def othersSet : List (BitVec 12 × Word) → BitVec 12 → Word → List (BitVec 12 × Word)
  | [], a, v => [(a, v)]
  | (k, w) :: rest, a, v => if k = a then (k, v) :: rest else (k, w) :: othersSet rest a v

/-- The stored value of a register. -/
def CsrFile.get (c : CsrFile) : CsrReg → Word
  | .fcsr => c.fcsr
  | .stvec => c.stvec
  | .scounteren => c.scounteren
  | .sscratch => c.sscratch
  | .sepc => c.sepc
  | .scause => c.scause
  | .stval => c.stval
  | .satp => c.satp
  | .mstatus => c.mstatus
  | .misa => c.misa
  | .medeleg => c.medeleg
  | .mideleg => c.mideleg
  | .mie => c.mie
  | .mtvec => c.mtvec
  | .mcounteren => c.mcounteren
  | .mscratch => c.mscratch
  | .mepc => c.mepc
  | .mcause => c.mcause
  | .mtval => c.mtval
  | .mvendorid => c.mvendorid
  | .marchid => c.marchid
  | .mimpid => c.mimpid
  | .mhartid => c.mhartid
  | .mconfigptr => c.mconfigptr
  | .other a => othersGet c.others a

/-- The file with one stored value replaced. -/
def CsrFile.set (c : CsrFile) (r : CsrReg) (v : Word) : CsrFile :=
  match r with
  | .fcsr => { c with fcsr := v }
  | .stvec => { c with stvec := v }
  | .scounteren => { c with scounteren := v }
  | .sscratch => { c with sscratch := v }
  | .sepc => { c with sepc := v }
  | .scause => { c with scause := v }
  | .stval => { c with stval := v }
  | .satp => { c with satp := v }
  | .mstatus => { c with mstatus := v }
  | .misa => { c with misa := v }
  | .medeleg => { c with medeleg := v }
  | .mideleg => { c with mideleg := v }
  | .mie => { c with mie := v }
  | .mtvec => { c with mtvec := v }
  | .mcounteren => { c with mcounteren := v }
  | .mscratch => { c with mscratch := v }
  | .mepc => { c with mepc := v }
  | .mcause => { c with mcause := v }
  | .mtval => { c with mtval := v }
  | .mvendorid => { c with mvendorid := v }
  | .marchid => { c with marchid := v }
  | .mimpid => { c with mimpid := v }
  | .mhartid => { c with mhartid := v }
  | .mconfigptr => { c with mconfigptr := v }
  | .other a => { c with others := othersSet c.others a v }

/-- A value with the bits of a mask replaced; bits outside the mask keep their value (R62). -/
def maskedWrite (old mask v : Word) : Word := (old &&& ~~~mask) ||| (v &&& mask)

/-- The bits that a trap's write of a saved pc reaches: the mask of the register's row (R642). DESIGN CHOICE: where a table has no
row for the register, all but bit 0, which is not writable (R57, log entry 12). -/
def savedPcMask (tbl : List CsrRow) (a : BitVec 12) : Word :=
  match csrFind tbl a with
  | some r => r.mask
  | none => ~~~1

/-! ### Memory: one byte (R100, R101) -/

/-- The byte at an address. -/
def Memory.read : List Host.Cell → Nat → Byte
  | [], _ => Memory.unlisted
  | (k, b) :: rest, a => if k = a then b else Memory.read rest a

/-- The entry for an address, unless the byte is what an unlisted address reads as. -/
def Memory.cell (a : Nat) (b : Byte) (rest : List Host.Cell) : List Host.Cell :=
  if b = Memory.unlisted then rest else (a, b) :: rest

/-- Memory with the byte at an address replaced, in canonical form. -/
def Memory.write : List Host.Cell → Nat → Byte → List Host.Cell
  | [], a, b => Memory.cell a b []
  | (k, c) :: rest, a, b =>
    if a < k then Memory.cell a b ((k, c) :: rest)
    else if a = k then Memory.cell a b rest
    else (k, c) :: Memory.write rest a b

/-- The value of `n` bytes from an address up, the byte at the lowest address in the low bits (R101). -/
def Memory.readLE (m : List Host.Cell) (a : Nat) : Nat → Word
  | 0 => 0
  | n + 1 => (Memory.read m a).setWidth 64 ||| (Memory.readLE m (a + 1) n <<< 8)

/-- Memory with the low `n` bytes of a value stored from an address up, least significant first (R101). -/
def Memory.writeLE (m : List Host.Cell) (a : Nat) : Nat → Word → List Host.Cell
  | 0, _ => m
  | n + 1, v => Memory.writeLE (Memory.write m a (v.setWidth 8)) (a + 1) n (v >>> 8)

/-- The byte of physical memory at an address. -/
def State.readByte (s : State) (a : Nat) : Byte := Memory.read s.mem a

/-! ### Exceptions, interrupts and the outcome of an operation -/

/-- The synchronous exceptions this block raises (R630). -/
inductive Exc where
  | illegalInstruction | breakpoint | loadAddressMisaligned | storeAmoAddressMisaligned
  | ecallFromU | ecallFromS | ecallFromM
  | instructionPageFault | loadPageFault | storeAmoPageFault
  deriving DecidableEq, Repr

/-- The cause code of an exception (R630). -/
def Exc.code : Exc → Nat
  | .illegalInstruction => 2
  | .breakpoint => 3
  | .loadAddressMisaligned => 4
  | .storeAmoAddressMisaligned => 6
  | .ecallFromU => 8
  | .ecallFromS => 9
  | .ecallFromM => 11
  | .instructionPageFault => 12
  | .loadPageFault => 13
  | .storeAmoPageFault => 15

/-- The six interrupts (R631). -/
inductive Interrupt where
  | ssi | msi | sti | mti | sei | mei
  deriving DecidableEq, Repr

/-- The code of an interrupt, which is also its bit position in `mip` and `mie` (R631). -/
def Interrupt.code : Interrupt → Nat
  | .ssi => 1
  | .msi => 3
  | .sti => 5
  | .mti => 7
  | .sei => 9
  | .mei => 11

/-- An event that enters a trap (R641). -/
inductive TrapEvent where
  | exception (e : Exc)
  | interrupt (c : Interrupt)
  deriving DecidableEq, Repr

/-- The event is an interrupt. -/
def TrapEvent.isInterrupt : TrapEvent → Bool
  | .exception _ => false
  | .interrupt _ => true

/-- The code of an event (R630, R631). -/
def TrapEvent.code : TrapEvent → Nat
  | .exception e => e.code
  | .interrupt c => c.code

/-- What an operation inside an instruction answers: a value and the state after it, an exception to take with its trap
value, or a model fault (R14). -/
inductive Res (α : Type) where
  | ok (a : α) (s : State)
  | raise (e : Exc) (tval : Word) (s : State)
  | fault (f : Fault)

/-- One operation after another. -/
def Res.bind {α β : Type} (r : Res α) (k : α → State → Res β) : Res β :=
  match r with
  | .ok a s => k a s
  | .raise e t s => .raise e t s
  | .fault f => .fault f

/-! ### Taking a trap (R641 to R647) -/

/-- The target privilege of a trap: an interrupt follows `mideleg`, an exception `medeleg` when it comes from U or S
(R641). -/
def trapTarget (ev : TrapEvent) (h : Hart) : Priv :=
  match ev with
  | .interrupt c => if bit h.csr.mideleg c.code then .supervisor else .machine
  | .exception e => if h.priv ≠ .machine ∧ bit h.csr.medeleg e.code then .supervisor else .machine

/-- The trap vector of a target privilege (R642). -/
def trapVector (target : Priv) (h : Hart) : Word :=
  match target with
  | .machine => h.csr.mtvec
  | _ => h.csr.stvec

/-- The handler's address: vectored by cause for an interrupt when MODE = 1, else BASE (R646). -/
def handlerAddress (tvec : Word) (ev : TrapEvent) : Word :=
  if tvecMode tvec = 1 ∧ ev.isInterrupt then tvecBase tvec + BitVec.ofNat 64 (4 * ev.code) else tvecBase tvec

/-- The CSR file after a trap to a target: the saved pc (a storage write with its mask), the cause, the trap value, and the
status (R642 to R644). -/
def trapCsr (tbl : List CsrRow) (target : Priv) (ev : TrapEvent) (tval epc : Word) (priv : Priv) (c : CsrFile) : CsrFile :=
  match target with
  | .machine =>
    (((c.set .mepc (maskedWrite c.mepc (savedPcMask tbl 0x341) epc)).set .mcause (causeValue ev.isInterrupt ev.code)).set .mtval tval).set .mstatus
      (statusTrapM c.mstatus priv)
  | _ =>
    (((c.set .sepc (maskedWrite c.sepc (savedPcMask tbl 0x141) epc)).set .scause (causeValue ev.isInterrupt ev.code)).set .stval tval).set .mstatus
      (statusTrapS c.mstatus priv)

/-- `TrapEntry(event, tval, epc)` (R642): a zero vector base is the model fault NoTrapHandler, before anything changes
(R647); otherwise the target's registers are written, the privilege becomes the target (R645) and the pc the handler's
address (R646). -/
def takeTrap (ev : TrapEvent) (tval epc : Word) (s : State) : Result :=
  let target := trapTarget ev s.hart
  let tvec := trapVector target s.hart
  if tvecBase tvec = 0 then .fault .noTrapHandler
  else .next (((s.withCsr (trapCsr s.cfg.csrTable target ev tval epc s.hart.priv s.hart.csr)).withPriv target).withPc
    (handlerAddress tvec ev))

/-- An instruction raises an exception: it ends at once and the trap is taken with the instruction's own address saved
(R201, R204). -/
def raiseExc (e : Exc) (tval : Word) (s : State) : Result := takeTrap (.exception e) tval s.hart.pc s

/-- `raise IllegalInstruction(draw)`: the trap value is a draw (R202, R633). -/
def illegal (s : State) : Result := raiseExc .illegalInstruction s.draw s.nextDraw

/-- The rest of an instruction after an operation that may raise or fault (R204). -/
def Res.run {α : Type} (r : Res α) (k : α → State → Result) : Result :=
  match r with
  | .ok a s => k a s
  | .raise e t s => raiseExc e t s
  | .fault f => .fault f

/-- An instruction with no further effect: the pc advances by its length (R203). -/
def finish (len : Nat) (s : State) : Result := .next (s.retire len)

/-! ### Returning from a trap (R425, R426, R651) -/

/-- What a return restores: the privilege, the status after it, and the pc. -/
def trapReturn (priv : Priv) (status target : Word) (s : State) : Result :=
  .next (((s.withCsr (s.hart.csr.set .mstatus status)).withPriv priv).withPc target)

/-! ### The physical bus (R100, R101, R109, R130, R131) -/

/-- The range that answers an access: one that holds all its bytes (R131). DESIGN CHOICE, unsafe: where ranges of `BUS_MAP`
overlap, the spec does not say which answers; the first of the list that holds the whole access does (R9, R11, R130, log entry
21). An access past the top of the address space is answered by none (log entry 19). -/
def busRange (map : List BusRange) (pa : Word) (n : Nat) : Option BusRange :=
  if pa.toNat + n ≤ 2 ^ 64 then map.find? fun r => r.covers pa.toNat n else none

/-- The low `n` bytes of a value. -/
def lowBytes (n : Nat) (v : Word) : Word := zextBytes n v

/-- `BusRead(pa, n)`: memory answers its bytes, a device answers a free value and the access is logged (R101, R109, R667,
log entry 9). -/
def busRead (pa : Word) (n : Nat) (s : State) : Res Word :=
  match busRange s.cfg.busMap pa n with
  | none => .fault .busFault
  | some r =>
    match r.kind with
    | .ram => .ok (Memory.readLE s.mem pa.toNat n) s
    | .device =>
      let v := lowBytes n s.draw
      .ok v (s.nextDraw.withBusLog (⟨false, pa, n, v⟩ :: s.busLog))

/-- `BusWrite(pa, n, v)`: memory takes the bytes, a write to a device is logged (R101, R109, R667, log entry 9). -/
def busWrite (pa : Word) (n : Nat) (v : Word) (s : State) : Res Unit :=
  match busRange s.cfg.busMap pa n with
  | none => .fault .busFault
  | some r =>
    match r.kind with
    | .ram => .ok () (s.withMem (Memory.writeLE s.mem pa.toNat n v))
    | .device => .ok () (s.withBusLog (⟨true, pa, n, lowBytes n v⟩ :: s.busLog))

end Sys2Proof.Machine
end

