-- ==== Sys2Proof/Machine/Translate.lean ====
section
/-! DEFINITION. Address translation: the page-table walk, the permission checks and A/D update, the TLB, and the data
accessors every instruction uses (R104 to R128). -/

namespace Sys2Proof.Machine

/-- The kind of an access (R110, R128). -/
inductive Access where
  | fetch | read | write
  deriving DecidableEq, Repr

/-- The page fault of an access kind (R126). -/
def Access.pageFault : Access → Exc
  | .fetch => .instructionPageFault
  | .read => .loadPageFault
  | .write => .storeAmoPageFault

/-! ### The TLB (R75, R112, R121, R123) -/

/-- The virtual page number of an address: bits 63:12 (R75). -/
def vpnOf (va : Word) : Nat := va.toNat / 4096

/-- A page number lies in one of the intervals. -/
def inKeys (k : Nat) (keys : List (Nat × Nat)) : Bool := keys.any fun iv => iv.1 ≤ k && k < iv.2

/-- The map holds the entry under the key `(vpn, asid)` (R75). -/
def TlbEntry.holds (e : TlbEntry) (vpn asid : Nat) : Bool := e.asidKey == asid && inKeys vpn e.keys

/-- The address lies in the entry's page (R112, R123). DESIGN CHOICE, unsafe: `vbase + size` is computed exactly, not modulo
2^64 (R13), so the page that ends at the top of the address space contains its addresses: it can be hit and flushed, and
`tlbInsert` gives it its keys (R121) (log entry 25). -/
def TlbEntry.contains (e : TlbEntry) (va : Word) : Bool :=
  e.vbase.toNat ≤ va.toNat && va.toNat < e.vbase.toNat + e.size

/-- The entry under the key `(vpn, asid)` (R75). -/
def tlbFind (tlb : List TlbEntry) (vpn asid : Nat) : Option TlbEntry := tlb.find? fun e => e.holds vpn asid

/-- The lookup of R112: the key `(vpn, asid)`, and if it has no entry, the key `(vpn, 0)`; a hit outside the entry's page
counts as a miss. -/
def tlbLookup (tlb : List TlbEntry) (va : Word) (asid : Nat) : Option TlbEntry :=
  match (tlbFind tlb (vpnOf va) asid).or (tlbFind tlb (vpnOf va) 0) with
  | some e => if e.contains va then some e else none
  | none => none

/-- The intervals without the page numbers from `lo` to `hi - 1`. -/
def cutKeys (lo hi : Nat) : List (Nat × Nat) → List (Nat × Nat)
  | [] => []
  | (a, b) :: rest =>
    (if a < min b lo then [(a, min b lo)] else []) ++ (if max a hi < b then [(max a hi, b)] else []) ++
      cutKeys lo hi rest

/-- Insertion of an entry: every key of its page maps to it, and an entry under one of those keys is replaced there (R121).
`vbase + size` is exact (log entry 25). -/
def tlbInsert (e : TlbEntry) (tlb : List TlbEntry) : List TlbEntry :=
  let lo := vpnOf e.vbase
  let hi := lo + e.size / 4096
  { e with keys := [(lo, hi)] } ::
    (tlb.map fun d => if d.asidKey = e.asidKey then { d with keys := cutKeys lo hi d.keys } else d).filter
      fun d => !d.keys.isEmpty

/-- The entry `e` gets a new cached page-table entry, under every key at once (R119, R121). -/
def tlbUpdate (e e' : TlbEntry) (tlb : List TlbEntry) : List TlbEntry := tlb.map fun d => if d = e then e' else d

/-- `Flush(vaddr, asid)` (R123): with both 0 everything goes; otherwise the entries whose address space matches (or all,
if asid is 0) and whose page contains vaddr (or all, if vaddr is 0). -/
def tlbFlush (vaddr : Word) (asid : Nat) (tlb : List TlbEntry) : List TlbEntry :=
  if vaddr = 0 ∧ asid = 0 then []
  else tlb.filter fun e => !((asid == 0 || e.asidKey == asid) && (vaddr == 0 || e.contains vaddr))

/-! ### Touch (R117 to R119) -/

/-- The checks of Touch: the access kind (R117), then the privilege (R118). `mstatus.MXR` and `MPRV` are not consulted
(R53, R117). -/
def touchAllowed (p : Word) (kind : Access) (priv : Priv) (sum : Bool) : Bool :=
  (match kind with
    | .fetch => pteX p && (!pteU p || priv == .user)
    | .read => pteR p
    | .write => pteW p) &&
  !(pteU p && priv == .supervisor && kind != .fetch && !sum) && !(!pteU p && priv == .user)

/-- The page-table entry after an access: A set, and D set by a write (R119). -/
def touchedPte (p : Word) (kind : Access) : Word := setBit (if kind = .write then setBit p 7 true else p) 6 true

/-- The A/D update is due: A is clear, or a write finds D clear (R119). -/
def touchDue (p : Word) (kind : Access) : Bool := !pteA p || (kind == .write && !pteD p)

/-- `Touch(e, va, kind)`: the checks, then the A/D write-back, an 8-byte bus write; the entry with its new cached
page-table entry (R117 to R119). -/
def touch (e : TlbEntry) (va : Word) (kind : Access) (s : State) : Res TlbEntry :=
  if touchAllowed e.pte kind s.hart.priv (statusSUM s.hart.csr.mstatus) then
    if touchDue e.pte kind then
      (busWrite e.pteAddr 8 (touchedPte e.pte kind) s).bind fun _ s' =>
        .ok { e with pte := touchedPte e.pte kind } s'
    else .ok e s
  else .raise kind.pageFault va s

/-! ### The walk (R112 to R116) -/

/-- The size in bytes of the page of a leaf at level `i` (R113). -/
def pageSize (i : Nat) : Nat := 2 ^ (12 + 9 * i)

/-- The address of the page-table entry for `va` at level `i`, in the table at page number `a` (R113). -/
def pteAddress (a va : Word) (i : Nat) : Word := a * 4096 + field va (12 + 9 * i) 9 * 8

/-- An address with its low bits below the page size cleared (R113). -/
def pageBase (a : Word) (i : Nat) : Word := a &&& ~~~(BitVec.ofNat 64 (pageSize i - 1))

/-- The entry a leaf at level `i` gives (R113, R116): a global one is stored under address space 0. -/
def leafEntry (va : Word) (asid i : Nat) (pteAddr pte : Word) : TlbEntry where
  pteAddr := pteAddr
  pte := pte
  vpn := vpnOf va
  asidKey := if pteG pte then 0 else asid
  vbase := pageBase va i
  pbase := pageBase (ptePpn pte <<< 12) i
  size := pageSize i
  keys := []

/-- The physical address of an access through an entry (R112, R113). -/
def TlbEntry.physical (e : TlbEntry) (va : Word) : Word := e.pbase + (va - e.vbase)

/-- The page-table entry is invalid: V clear, or W without R (R115). -/
def pteInvalid (p : Word) : Bool := !pteV p || (pteW p && !pteR p)

/-- The page-table entry is a leaf: R or X (R115). -/
def pteLeaf (p : Word) : Bool := pteR p || pteX p

/-- The descent on a miss (R113 to R116), with `n` levels left, the table of the highest at page number `a`. -/
def descend (va : Word) (kind : Access) (asid : Nat) : Nat → Word → State → Res Word
  | 0, _, s => .raise kind.pageFault va s
  | i + 1, a, s =>
    (busRead (pteAddress a va i) 8 s).bind fun pte s1 =>
      if pteInvalid pte then .raise kind.pageFault va s1
      else if pteLeaf pte then
        (touch (leafEntry va asid i (pteAddress a va i) pte) va kind s1).bind fun e s2 =>
          .ok (e.physical va) (s2.withTlb (tlbInsert e s2.hart.tlb))
      else descend va kind asid i (ptePpn pte) s1

/-- `Walk(levels, va, kind, asid, root)`: the TLB, then the page tables (R112, R113). -/
def walk (levels : Nat) (va : Word) (kind : Access) (asid : Nat) (root : Word) (s : State) : Res Word :=
  match tlbLookup s.hart.tlb va asid with
  | some e =>
    (touch e va kind s).bind fun e' s' => .ok (e.physical va) (s'.withTlb (tlbUpdate e e' s'.hart.tlb))
  | none => descend va kind asid levels root s

/-- The number of levels a paging mode walks: Sv39, Sv48, Sv57 (R10, R110). -/
def satpLevels : Nat → Option Nat
  | 8 => some 3
  | 9 => some 4
  | 10 => some 5
  | _ => none

/-- `Translate(va, kind)` (R110): M-mode and bare mode use the address unchanged; an unsupported MODE is a model fault
(R111). -/
def translate (va : Word) (kind : Access) (s : State) : Res Word :=
  let satp := s.hart.csr.satp
  if s.hart.priv = .machine then .ok va s
  else if satpMode satp = 0 then .ok va s
  else
    match satpLevels (satpMode satp) with
    | some levels => walk levels va kind (satpAsid satp) (satpPpn satp) s
    | none => .fault .unsupportedSatpMode

/-- `Translating()`: below M-mode with a MODE other than bare (R104). -/
def translating (s : State) : Bool := s.hart.priv != .machine && satpMode s.hart.csr.satp != 0

/-- An access of `n` bytes crosses a 4 KiB boundary (R104). -/
def crossesPage (va : Word) (n : Nat) : Bool := va.toNat % 4096 + n > 4096

/-- `Translate` and `CheckCross`: the physical address of a data access (R104, R105). -/
def dataAddress (va : Word) (kind : Access) (n : Nat) (s : State) : Res Word :=
  (translate va kind s).bind fun pa s' =>
    if translating s' && crossesPage va n then .fault .misalignedPageCross else .ok pa s'

/-- `MemRead(va, n)` (R104). -/
def memRead (va : Word) (n : Nat) (s : State) : Res Word :=
  (dataAddress va .read n s).bind fun pa s' => busRead pa n s'

/-- `MemWrite(va, n, v)` (R104). -/
def memWrite (va : Word) (n : Nat) (v : Word) (s : State) : Res Unit :=
  (dataAddress va .write n s).bind fun pa s' => busWrite pa n v s'

end Sys2Proof.Machine
end

