-- ==== Sys2Proof/Machine/LoadStore.lean ====
section
/-! DEFINITION. The load and store instructions (R340 to R351). Their rules do not mention the pc, so each goes on at the pc plus the length
of the instruction (R203). -/

namespace Sys2Proof.Machine

/-- The effective address of an offset from a register: `x[rs1] + offset` modulo 2^64 (R340). -/
def effectiveAddress (rs1 : BitVec 5) (offset : Word) (s : State) : Word := s.readX rs1 + offset

/-- A load of `n` bytes into a GPR: nothing is written unless the read succeeds (R340). -/
def load (len n : Nat) (extend : Word → Word) (rd : BitVec 5) (ea : Word) (s : State) : Result :=
  (memRead ea n s).run fun v s' => finish len (s'.writeX rd (extend v))

/-- A store of the low `n` bytes of a value (R340). -/
def store (len n : Nat) (v ea : Word) (s : State) : Result :=
  (memWrite ea n v s).run fun _ s' => finish len s'

/-- `lb rd, offset(rs1)`: load byte, signed (R341). -/
def execLb (rd : BitVec 5) (rs1 : BitVec 5) (imm : BitVec 12) (s : State) : Result :=
  load s.len.bytes 1 (sextBytes 1) rd (effectiveAddress rs1 (sext imm) s) s

/-- `lh rd, offset(rs1)`: load halfword, signed (R342). -/
def execLh (rd : BitVec 5) (rs1 : BitVec 5) (imm : BitVec 12) (s : State) : Result :=
  load s.len.bytes 2 (sextBytes 2) rd (effectiveAddress rs1 (sext imm) s) s

/-- `lw rd, offset(rs1)`: load word, signed (R343). -/
def execLw (rd : BitVec 5) (rs1 : BitVec 5) (imm : BitVec 12) (s : State) : Result :=
  load s.len.bytes 4 (sextBytes 4) rd (effectiveAddress rs1 (sext imm) s) s

/-- `ld rd, offset(rs1)`: load doubleword (R344). -/
def execLd (rd : BitVec 5) (rs1 : BitVec 5) (imm : BitVec 12) (s : State) : Result :=
  load s.len.bytes 8 id rd (effectiveAddress rs1 (sext imm) s) s

/-- `lbu rd, offset(rs1)`: load byte, unsigned (R345). -/
def execLbu (rd : BitVec 5) (rs1 : BitVec 5) (imm : BitVec 12) (s : State) : Result :=
  load s.len.bytes 1 (zextBytes 1) rd (effectiveAddress rs1 (sext imm) s) s

/-- `lhu rd, offset(rs1)`: load halfword, unsigned (R346). -/
def execLhu (rd : BitVec 5) (rs1 : BitVec 5) (imm : BitVec 12) (s : State) : Result :=
  load s.len.bytes 2 (zextBytes 2) rd (effectiveAddress rs1 (sext imm) s) s

/-- `lwu rd, offset(rs1)`: load word, unsigned (R347). -/
def execLwu (rd : BitVec 5) (rs1 : BitVec 5) (imm : BitVec 12) (s : State) : Result :=
  load s.len.bytes 4 (zextBytes 4) rd (effectiveAddress rs1 (sext imm) s) s

/-- `sb rs2, offset(rs1)`: store byte (R348). -/
def execSb (rs1 : BitVec 5) (rs2 : BitVec 5) (imm : BitVec 12) (s : State) : Result :=
  store s.len.bytes 1 (s.readX rs2) (effectiveAddress rs1 (sext imm) s) s

/-- `sh rs2, offset(rs1)`: store halfword (R349). -/
def execSh (rs1 : BitVec 5) (rs2 : BitVec 5) (imm : BitVec 12) (s : State) : Result :=
  store s.len.bytes 2 (s.readX rs2) (effectiveAddress rs1 (sext imm) s) s

/-- `sw rs2, offset(rs1)`: store word (R350). -/
def execSw (rs1 : BitVec 5) (rs2 : BitVec 5) (imm : BitVec 12) (s : State) : Result :=
  store s.len.bytes 4 (s.readX rs2) (effectiveAddress rs1 (sext imm) s) s

/-- `sd rs2, offset(rs1)`: store doubleword (R351). -/
def execSd (rs1 : BitVec 5) (rs2 : BitVec 5) (imm : BitVec 12) (s : State) : Result :=
  store s.len.bytes 8 (s.readX rs2) (effectiveAddress rs1 (sext imm) s) s

end Sys2Proof.Machine
end

