-- ==== Sys2Proof/Machine/Atomic.lean ====
section
/-! DEFINITION. The atomic instructions (R380 to R404). Their rules do not mention the pc, so each goes on at the pc plus the length of the
instruction (R203). -/

namespace Sys2Proof.Machine

/-- The address is a multiple of `n` (R106, R380). -/
def alignedTo (n : Nat) (a : Word) : Bool := a.toNat % n == 0

/-- Load-reserved of `n` bytes: an aligned load; no reservation is recorded (R145, R381, R392). The ordering bits have no
effect (R404). -/
def loadReserved (n : Nat) (rd rs1 : BitVec 5) (s : State) : Result :=
  let a := s.readX rs1
  if alignedTo n a then load s.len.bytes n (sextBytes n) rd a s else raiseExc .loadAddressMisaligned a s

/-- Store-conditional of `n` bytes: an aligned store, and 0 into `rd`: it always succeeds (R145, R382, R393). -/
def storeConditional (n : Nat) (rd rs1 rs2 : BitVec 5) (s : State) : Result :=
  let a := s.readX rs1
  if alignedTo n a then
    (memWrite a n (s.readX rs2) s).run fun _ s' => finish s.len.bytes (s'.writeX rd 0)
  else raiseExc .storeAmoAddressMisaligned a s

/-- The read-modify-write of R380 on `n` bytes: one translation as a write, the read, the operation on the `8n`-bit values,
the write, and the old value sign-extended into `rd`. The address lock around the read and the write has no architectural
value, and nothing runs between them within a step (R78, R142, R403, log entry 11). -/
def amo (n : Nat) (op : BitVec (8 * n) → BitVec (8 * n) → BitVec (8 * n)) (rd rs1 rs2 : BitVec 5) (s : State) : Result :=
  let a := s.readX rs1
  if alignedTo n a then
    (translate a .write s).run fun pa s1 =>
      (busRead pa n s1).run fun old s2 =>
        (busWrite pa n (zext (op (old.setWidth (8 * n)) ((s.readX rs2).setWidth (8 * n)))) s2).run fun _ s3 =>
          finish s.len.bytes (s3.writeX rd (sextBytes n old))
  else raiseExc .storeAmoAddressMisaligned a s

/-- `lr.w rd, (rs1)`: load-reserved word (R381). -/
def execLrW (rd : BitVec 5) (rs1 : BitVec 5) (_aq : BitVec 1) (_rl : BitVec 1) (s : State) : Result :=
  loadReserved 4 rd rs1 s

/-- `sc.w rd, rs2, (rs1)`: store-conditional word, which always succeeds (R382). -/
def execScW (rd : BitVec 5) (rs1 : BitVec 5) (rs2 : BitVec 5) (_aq : BitVec 1) (_rl : BitVec 1) (s : State) : Result :=
  storeConditional 4 rd rs1 rs2 s

/-- `amoswap.w rd, rs2, (rs1)`: atomic swap, word (R383). -/
def execAmoswapW (rd : BitVec 5) (rs1 : BitVec 5) (rs2 : BitVec 5) (_aq : BitVec 1) (_rl : BitVec 1) (s : State) : Result :=
  amo 4 amoSwap rd rs1 rs2 s

/-- `amoadd.w rd, rs2, (rs1)`: atomic add, word (R384). -/
def execAmoaddW (rd : BitVec 5) (rs1 : BitVec 5) (rs2 : BitVec 5) (_aq : BitVec 1) (_rl : BitVec 1) (s : State) : Result :=
  amo 4 amoAdd rd rs1 rs2 s

/-- `amoxor.w rd, rs2, (rs1)`: atomic exclusive or, word (R385). -/
def execAmoxorW (rd : BitVec 5) (rs1 : BitVec 5) (rs2 : BitVec 5) (_aq : BitVec 1) (_rl : BitVec 1) (s : State) : Result :=
  amo 4 amoXor rd rs1 rs2 s

/-- `amoand.w rd, rs2, (rs1)`: atomic and, word (R386). -/
def execAmoandW (rd : BitVec 5) (rs1 : BitVec 5) (rs2 : BitVec 5) (_aq : BitVec 1) (_rl : BitVec 1) (s : State) : Result :=
  amo 4 amoAnd rd rs1 rs2 s

/-- `amoor.w rd, rs2, (rs1)`: atomic or, word (R387). -/
def execAmoorW (rd : BitVec 5) (rs1 : BitVec 5) (rs2 : BitVec 5) (_aq : BitVec 1) (_rl : BitVec 1) (s : State) : Result :=
  amo 4 amoOr rd rs1 rs2 s

/-- `amomin.w rd, rs2, (rs1)`: atomic minimum, signed, word (R388). -/
def execAmominW (rd : BitVec 5) (rs1 : BitVec 5) (rs2 : BitVec 5) (_aq : BitVec 1) (_rl : BitVec 1) (s : State) : Result :=
  amo 4 amoMin rd rs1 rs2 s

/-- `amomax.w rd, rs2, (rs1)`: atomic maximum, signed, word (R389). -/
def execAmomaxW (rd : BitVec 5) (rs1 : BitVec 5) (rs2 : BitVec 5) (_aq : BitVec 1) (_rl : BitVec 1) (s : State) : Result :=
  amo 4 amoMax rd rs1 rs2 s

/-- `amominu.w rd, rs2, (rs1)`: atomic minimum, unsigned, word (R390). -/
def execAmominuW (rd : BitVec 5) (rs1 : BitVec 5) (rs2 : BitVec 5) (_aq : BitVec 1) (_rl : BitVec 1) (s : State) : Result :=
  amo 4 amoMinu rd rs1 rs2 s

/-- `amomaxu.w rd, rs2, (rs1)`: atomic maximum, unsigned, word (R391). -/
def execAmomaxuW (rd : BitVec 5) (rs1 : BitVec 5) (rs2 : BitVec 5) (_aq : BitVec 1) (_rl : BitVec 1) (s : State) : Result :=
  amo 4 amoMaxu rd rs1 rs2 s

/-- `lr.d rd, (rs1)`: load-reserved doubleword (R392). -/
def execLrD (rd : BitVec 5) (rs1 : BitVec 5) (_aq : BitVec 1) (_rl : BitVec 1) (s : State) : Result :=
  loadReserved 8 rd rs1 s

/-- `sc.d rd, rs2, (rs1)`: store-conditional doubleword, which always succeeds (R393). -/
def execScD (rd : BitVec 5) (rs1 : BitVec 5) (rs2 : BitVec 5) (_aq : BitVec 1) (_rl : BitVec 1) (s : State) : Result :=
  storeConditional 8 rd rs1 rs2 s

/-- `amoswap.d rd, rs2, (rs1)`: atomic swap, doubleword (R394). -/
def execAmoswapD (rd : BitVec 5) (rs1 : BitVec 5) (rs2 : BitVec 5) (_aq : BitVec 1) (_rl : BitVec 1) (s : State) : Result :=
  amo 8 amoSwap rd rs1 rs2 s

/-- `amoadd.d rd, rs2, (rs1)`: atomic add, doubleword (R395). -/
def execAmoaddD (rd : BitVec 5) (rs1 : BitVec 5) (rs2 : BitVec 5) (_aq : BitVec 1) (_rl : BitVec 1) (s : State) : Result :=
  amo 8 amoAdd rd rs1 rs2 s

/-- `amoxor.d rd, rs2, (rs1)`: atomic exclusive or, doubleword (R396). -/
def execAmoxorD (rd : BitVec 5) (rs1 : BitVec 5) (rs2 : BitVec 5) (_aq : BitVec 1) (_rl : BitVec 1) (s : State) : Result :=
  amo 8 amoXor rd rs1 rs2 s

/-- `amoand.d rd, rs2, (rs1)`: atomic and, doubleword (R397). -/
def execAmoandD (rd : BitVec 5) (rs1 : BitVec 5) (rs2 : BitVec 5) (_aq : BitVec 1) (_rl : BitVec 1) (s : State) : Result :=
  amo 8 amoAnd rd rs1 rs2 s

/-- `amoor.d rd, rs2, (rs1)`: atomic or, doubleword (R398). -/
def execAmoorD (rd : BitVec 5) (rs1 : BitVec 5) (rs2 : BitVec 5) (_aq : BitVec 1) (_rl : BitVec 1) (s : State) : Result :=
  amo 8 amoOr rd rs1 rs2 s

/-- `amomin.d rd, rs2, (rs1)`: atomic minimum, signed, doubleword (R399). -/
def execAmominD (rd : BitVec 5) (rs1 : BitVec 5) (rs2 : BitVec 5) (_aq : BitVec 1) (_rl : BitVec 1) (s : State) : Result :=
  amo 8 amoMin rd rs1 rs2 s

/-- `amomax.d rd, rs2, (rs1)`: atomic maximum, signed, doubleword (R400). -/
def execAmomaxD (rd : BitVec 5) (rs1 : BitVec 5) (rs2 : BitVec 5) (_aq : BitVec 1) (_rl : BitVec 1) (s : State) : Result :=
  amo 8 amoMax rd rs1 rs2 s

/-- `amominu.d rd, rs2, (rs1)`: atomic minimum, unsigned, doubleword (R401). -/
def execAmominuD (rd : BitVec 5) (rs1 : BitVec 5) (rs2 : BitVec 5) (_aq : BitVec 1) (_rl : BitVec 1) (s : State) : Result :=
  amo 8 amoMinu rd rs1 rs2 s

/-- `amomaxu.d rd, rs2, (rs1)`: atomic maximum, unsigned, doubleword (R402). -/
def execAmomaxuD (rd : BitVec 5) (rs1 : BitVec 5) (rs2 : BitVec 5) (_aq : BitVec 1) (_rl : BitVec 1) (s : State) : Result :=
  amo 8 amoMaxu rd rs1 rs2 s

end Sys2Proof.Machine
end

