-- ==== Sys2Proof/Machine/Control.lean ====
section
/-! DEFINITION. The control transfer instructions (R320 to R328). -/

namespace Sys2Proof.Machine

/-- Jump and link: `rd` takes the address after the instruction, the pc the target (R320). -/
def link (len : Nat) (rd : BitVec 5) (target : Word) (s : State) : Result :=
  .next ((s.writeX rd (s.hart.pc + BitVec.ofNat 64 len)).withPc target)

/-- A target with bit 0 cleared (R322). -/
def clearBit0 (t : Word) : Word := t &&& ~~~1

/-- A branch: to the target if the condition holds, else to the next instruction (R323 to R328). -/
def branch (len : Nat) (cond : Bool) (offset : Word) (s : State) : Result :=
  if cond then .next (s.withPc (s.hart.pc + offset)) else finish len s

/-- `jal rd, offset`: jump and link (R321). -/
def execJal (rd : BitVec 5) (imm : BitVec 21) (s : State) : Result := link 4 rd (s.hart.pc + sext imm) s

/-- `jalr rd, offset(rs1)`: jump and link register (R322). -/
def execJalr (rd : BitVec 5) (rs1 : BitVec 5) (imm : BitVec 12) (s : State) : Result :=
  link 4 rd (clearBit0 (s.readX rs1 + sext imm)) s

/-- `beq rs1, rs2, offset`: branch if equal (R323). -/
def execBeq (rs1 : BitVec 5) (rs2 : BitVec 5) (imm : BitVec 13) (s : State) : Result :=
  branch 4 (s.readX rs1 == s.readX rs2) (sext imm) s

/-- `bne rs1, rs2, offset`: branch if not equal (R324). -/
def execBne (rs1 : BitVec 5) (rs2 : BitVec 5) (imm : BitVec 13) (s : State) : Result :=
  branch 4 (s.readX rs1 != s.readX rs2) (sext imm) s

/-- `blt rs1, rs2, offset`: branch if less than, signed (R325). -/
def execBlt (rs1 : BitVec 5) (rs2 : BitVec 5) (imm : BitVec 13) (s : State) : Result :=
  branch 4 (ltSigned (s.readX rs1) (s.readX rs2)) (sext imm) s

/-- `bge rs1, rs2, offset`: branch if greater or equal, signed (R326). -/
def execBge (rs1 : BitVec 5) (rs2 : BitVec 5) (imm : BitVec 13) (s : State) : Result :=
  branch 4 (!ltSigned (s.readX rs1) (s.readX rs2)) (sext imm) s

/-- `bltu rs1, rs2, offset`: branch if less than, unsigned (R327). -/
def execBltu (rs1 : BitVec 5) (rs2 : BitVec 5) (imm : BitVec 13) (s : State) : Result :=
  branch 4 (ltUnsigned (s.readX rs1) (s.readX rs2)) (sext imm) s

/-- `bgeu rs1, rs2, offset`: branch if greater or equal, unsigned (R328). -/
def execBgeu (rs1 : BitVec 5) (rs2 : BitVec 5) (imm : BitVec 13) (s : State) : Result :=
  branch 4 (!ltUnsigned (s.readX rs1) (s.readX rs2)) (sext imm) s

end Sys2Proof.Machine
end

