-- ==== Sys2Proof/Machine/Float.lean ====
section
/-! DEFINITION. The floating-point instructions: the loads, stores and moves (R490 to R499), and the arithmetic, which the source leaves
unsupported (R510 to R564). The rules of the loads, stores and moves do not mention the pc, so each goes on at the pc plus the length
of the instruction (R203). -/

namespace Sys2Proof.Machine

/-- The twelve FP loads, stores and moves execute, or raise IllegalInstruction, as `FP_MEMORY_OPS` says (R490). -/
def fpGate (act : State → Result) (s : State) : Result :=
  match s.cfg.fpMemoryOps with
  | .implemented => act s
  | .stub => illegal s

/-- An FP load of `n` bytes (R491, R492). -/
def loadF (len n : Nat) (box : Word → Word) (rd : BitVec 5) (ea : Word) (s : State) : Result :=
  (memRead ea n s).run fun v s' => finish len (s'.writeF rd (box v))

/-- An FP arithmetic, compare, classify, convert or fused instruction: IllegalInstruction, and nothing read or written
(R510). -/
def fpStub (s : State) : Result := illegal s

/-- `flw rd, offset(rs1)`: load single-precision (R491, R499). -/
def execFlw (rd : BitVec 5) (rs1 : BitVec 5) (imm : BitVec 12) (s : State) : Result :=
  fpGate (loadF s.len.bytes 4 nanBox rd (effectiveAddress rs1 (sext imm) s)) s

/-- `fld rd, offset(rs1)`: load double-precision (R492). -/
def execFld (rd : BitVec 5) (rs1 : BitVec 5) (imm : BitVec 12) (s : State) : Result :=
  fpGate (loadF s.len.bytes 8 id rd (effectiveAddress rs1 (sext imm) s)) s

/-- `fsw rs2, offset(rs1)`: store single-precision (R493). -/
def execFsw (rs1 : BitVec 5) (rs2 : BitVec 5) (imm : BitVec 12) (s : State) : Result :=
  fpGate (store s.len.bytes 4 (s.readF rs2) (effectiveAddress rs1 (sext imm) s)) s

/-- `fsd rs2, offset(rs1)`: store double-precision (R494). -/
def execFsd (rs1 : BitVec 5) (rs2 : BitVec 5) (imm : BitVec 12) (s : State) : Result :=
  fpGate (store s.len.bytes 8 (s.readF rs2) (effectiveAddress rs1 (sext imm) s)) s

/-- `fmv.x.w rd, rs1`: move single-precision bits to integer register (R495). -/
def execFmvXW (rd : BitVec 5) (rs1 : BitVec 5) (s : State) : Result :=
  fpGate (fun t => finish t.len.bytes (t.writeX rd (sext (low32 (t.readF rs1))))) s

/-- `fmv.w.x rd, rs1`: move integer bits to single-precision register (R496, R499). -/
def execFmvWX (rd : BitVec 5) (rs1 : BitVec 5) (s : State) : Result :=
  fpGate (fun t => finish t.len.bytes (t.writeF rd (nanBox (t.readX rs1)))) s

/-- `fmv.x.d rd, rs1`: move double-precision bits to integer register (R497). -/
def execFmvXD (rd : BitVec 5) (rs1 : BitVec 5) (s : State) : Result :=
  fpGate (fun t => finish t.len.bytes (t.writeX rd (t.readF rs1))) s

/-- `fmv.d.x rd, rs1`: move integer bits to double-precision register (R498). -/
def execFmvDX (rd : BitVec 5) (rs1 : BitVec 5) (s : State) : Result :=
  fpGate (fun t => finish t.len.bytes (t.writeF rd (t.readX rs1))) s

/-- `fadd.s rd, rs1, rs2, rm`: add, single-precision (stub) (R511). -/
def execFaddS (_rd : BitVec 5) (_rs1 : BitVec 5) (_rs2 : BitVec 5) (_rm : BitVec 3) (s : State) : Result := fpStub s

/-- `fsub.s rd, rs1, rs2, rm`: subtract, single-precision (stub) (R512). -/
def execFsubS (_rd : BitVec 5) (_rs1 : BitVec 5) (_rs2 : BitVec 5) (_rm : BitVec 3) (s : State) : Result := fpStub s

/-- `fmul.s rd, rs1, rs2, rm`: multiply, single-precision (stub) (R513). -/
def execFmulS (_rd : BitVec 5) (_rs1 : BitVec 5) (_rs2 : BitVec 5) (_rm : BitVec 3) (s : State) : Result := fpStub s

/-- `fdiv.s rd, rs1, rs2, rm`: divide, single-precision (stub) (R514). -/
def execFdivS (_rd : BitVec 5) (_rs1 : BitVec 5) (_rs2 : BitVec 5) (_rm : BitVec 3) (s : State) : Result := fpStub s

/-- `fsqrt.s rd, rs1, rm`: square root, single-precision (stub) (R515). -/
def execFsqrtS (_rd : BitVec 5) (_rs1 : BitVec 5) (_rm : BitVec 3) (s : State) : Result := fpStub s

/-- `fsgnj.s rd, rs1, rs2`: sign inject, single-precision (stub) (R516). -/
def execFsgnjS (_rd : BitVec 5) (_rs1 : BitVec 5) (_rs2 : BitVec 5) (s : State) : Result := fpStub s

/-- `fsgnjn.s rd, rs1, rs2`: sign inject negated, single-precision (stub) (R517). -/
def execFsgnjnS (_rd : BitVec 5) (_rs1 : BitVec 5) (_rs2 : BitVec 5) (s : State) : Result := fpStub s

/-- `fsgnjx.s rd, rs1, rs2`: sign inject xor, single-precision (stub) (R518). -/
def execFsgnjxS (_rd : BitVec 5) (_rs1 : BitVec 5) (_rs2 : BitVec 5) (s : State) : Result := fpStub s

/-- `fmin.s rd, rs1, rs2`: minimum, single-precision (stub) (R519). -/
def execFminS (_rd : BitVec 5) (_rs1 : BitVec 5) (_rs2 : BitVec 5) (s : State) : Result := fpStub s

/-- `fmax.s rd, rs1, rs2`: maximum, single-precision (stub) (R520). -/
def execFmaxS (_rd : BitVec 5) (_rs1 : BitVec 5) (_rs2 : BitVec 5) (s : State) : Result := fpStub s

/-- `feq.s rd, rs1, rs2`: compare equal, single-precision (stub) (R521). -/
def execFeqS (_rd : BitVec 5) (_rs1 : BitVec 5) (_rs2 : BitVec 5) (s : State) : Result := fpStub s

/-- `flt.s rd, rs1, rs2`: compare less than, single-precision (stub) (R522). -/
def execFltS (_rd : BitVec 5) (_rs1 : BitVec 5) (_rs2 : BitVec 5) (s : State) : Result := fpStub s

/-- `fle.s rd, rs1, rs2`: compare less or equal, single-precision (stub) (R523). -/
def execFleS (_rd : BitVec 5) (_rs1 : BitVec 5) (_rs2 : BitVec 5) (s : State) : Result := fpStub s

/-- `fclass.s rd, rs1`: classify, single-precision (stub) (R524). -/
def execFclassS (_rd : BitVec 5) (_rs1 : BitVec 5) (s : State) : Result := fpStub s

/-- `fcvt.w.s rd, rs1, rm`: convert single-precision to signed word integer (stub) (R525). -/
def execFcvtWS (_rd : BitVec 5) (_rs1 : BitVec 5) (_rm : BitVec 3) (s : State) : Result := fpStub s

/-- `fcvt.wu.s rd, rs1, rm`: convert single-precision to unsigned word integer (stub) (R526). -/
def execFcvtWuS (_rd : BitVec 5) (_rs1 : BitVec 5) (_rm : BitVec 3) (s : State) : Result := fpStub s

/-- `fcvt.l.s rd, rs1, rm`: convert single-precision to signed doubleword integer (stub) (R527). -/
def execFcvtLS (_rd : BitVec 5) (_rs1 : BitVec 5) (_rm : BitVec 3) (s : State) : Result := fpStub s

/-- `fcvt.lu.s rd, rs1, rm`: convert single-precision to unsigned doubleword integer (stub) (R528). -/
def execFcvtLuS (_rd : BitVec 5) (_rs1 : BitVec 5) (_rm : BitVec 3) (s : State) : Result := fpStub s

/-- `fcvt.s.w rd, rs1, rm`: convert signed word integer to single-precision (stub) (R529). -/
def execFcvtSW (_rd : BitVec 5) (_rs1 : BitVec 5) (_rm : BitVec 3) (s : State) : Result := fpStub s

/-- `fcvt.s.wu rd, rs1, rm`: convert unsigned word integer to single-precision (stub) (R530). -/
def execFcvtSWu (_rd : BitVec 5) (_rs1 : BitVec 5) (_rm : BitVec 3) (s : State) : Result := fpStub s

/-- `fcvt.s.l rd, rs1, rm`: convert signed doubleword integer to single-precision (stub) (R531). -/
def execFcvtSL (_rd : BitVec 5) (_rs1 : BitVec 5) (_rm : BitVec 3) (s : State) : Result := fpStub s

/-- `fcvt.s.lu rd, rs1, rm`: convert unsigned doubleword integer to single-precision (stub) (R532). -/
def execFcvtSLu (_rd : BitVec 5) (_rs1 : BitVec 5) (_rm : BitVec 3) (s : State) : Result := fpStub s

/-- `fadd.d rd, rs1, rs2, rm`: add, double-precision (stub) (R533). -/
def execFaddD (_rd : BitVec 5) (_rs1 : BitVec 5) (_rs2 : BitVec 5) (_rm : BitVec 3) (s : State) : Result := fpStub s

/-- `fsub.d rd, rs1, rs2, rm`: subtract, double-precision (stub) (R534). -/
def execFsubD (_rd : BitVec 5) (_rs1 : BitVec 5) (_rs2 : BitVec 5) (_rm : BitVec 3) (s : State) : Result := fpStub s

/-- `fmul.d rd, rs1, rs2, rm`: multiply, double-precision (stub) (R535). -/
def execFmulD (_rd : BitVec 5) (_rs1 : BitVec 5) (_rs2 : BitVec 5) (_rm : BitVec 3) (s : State) : Result := fpStub s

/-- `fdiv.d rd, rs1, rs2, rm`: divide, double-precision (stub) (R536). -/
def execFdivD (_rd : BitVec 5) (_rs1 : BitVec 5) (_rs2 : BitVec 5) (_rm : BitVec 3) (s : State) : Result := fpStub s

/-- `fsqrt.d rd, rs1, rm`: square root, double-precision (stub) (R537). -/
def execFsqrtD (_rd : BitVec 5) (_rs1 : BitVec 5) (_rm : BitVec 3) (s : State) : Result := fpStub s

/-- `fsgnj.d rd, rs1, rs2`: sign inject, double-precision (stub) (R538). -/
def execFsgnjD (_rd : BitVec 5) (_rs1 : BitVec 5) (_rs2 : BitVec 5) (s : State) : Result := fpStub s

/-- `fsgnjn.d rd, rs1, rs2`: sign inject negated, double-precision (stub) (R539). -/
def execFsgnjnD (_rd : BitVec 5) (_rs1 : BitVec 5) (_rs2 : BitVec 5) (s : State) : Result := fpStub s

/-- `fsgnjx.d rd, rs1, rs2`: sign inject xor, double-precision (stub) (R540). -/
def execFsgnjxD (_rd : BitVec 5) (_rs1 : BitVec 5) (_rs2 : BitVec 5) (s : State) : Result := fpStub s

/-- `fmin.d rd, rs1, rs2`: minimum, double-precision (stub) (R541). -/
def execFminD (_rd : BitVec 5) (_rs1 : BitVec 5) (_rs2 : BitVec 5) (s : State) : Result := fpStub s

/-- `fmax.d rd, rs1, rs2`: maximum, double-precision (stub) (R542). -/
def execFmaxD (_rd : BitVec 5) (_rs1 : BitVec 5) (_rs2 : BitVec 5) (s : State) : Result := fpStub s

/-- `feq.d rd, rs1, rs2`: compare equal, double-precision (stub) (R543). -/
def execFeqD (_rd : BitVec 5) (_rs1 : BitVec 5) (_rs2 : BitVec 5) (s : State) : Result := fpStub s

/-- `flt.d rd, rs1, rs2`: compare less than, double-precision (stub) (R544). -/
def execFltD (_rd : BitVec 5) (_rs1 : BitVec 5) (_rs2 : BitVec 5) (s : State) : Result := fpStub s

/-- `fle.d rd, rs1, rs2`: compare less or equal, double-precision (stub) (R545). -/
def execFleD (_rd : BitVec 5) (_rs1 : BitVec 5) (_rs2 : BitVec 5) (s : State) : Result := fpStub s

/-- `fclass.d rd, rs1`: classify, double-precision (stub) (R546). -/
def execFclassD (_rd : BitVec 5) (_rs1 : BitVec 5) (s : State) : Result := fpStub s

/-- `fcvt.w.d rd, rs1, rm`: convert double-precision to signed word integer (stub) (R547). -/
def execFcvtWD (_rd : BitVec 5) (_rs1 : BitVec 5) (_rm : BitVec 3) (s : State) : Result := fpStub s

/-- `fcvt.wu.d rd, rs1, rm`: convert double-precision to unsigned word integer (stub) (R548). -/
def execFcvtWuD (_rd : BitVec 5) (_rs1 : BitVec 5) (_rm : BitVec 3) (s : State) : Result := fpStub s

/-- `fcvt.l.d rd, rs1, rm`: convert double-precision to signed doubleword integer (stub) (R549). -/
def execFcvtLD (_rd : BitVec 5) (_rs1 : BitVec 5) (_rm : BitVec 3) (s : State) : Result := fpStub s

/-- `fcvt.lu.d rd, rs1, rm`: convert double-precision to unsigned doubleword integer (stub) (R550). -/
def execFcvtLuD (_rd : BitVec 5) (_rs1 : BitVec 5) (_rm : BitVec 3) (s : State) : Result := fpStub s

/-- `fcvt.d.w rd, rs1, rm`: convert signed word integer to double-precision (stub) (R551). -/
def execFcvtDW (_rd : BitVec 5) (_rs1 : BitVec 5) (_rm : BitVec 3) (s : State) : Result := fpStub s

/-- `fcvt.d.wu rd, rs1, rm`: convert unsigned word integer to double-precision (stub) (R552). -/
def execFcvtDWu (_rd : BitVec 5) (_rs1 : BitVec 5) (_rm : BitVec 3) (s : State) : Result := fpStub s

/-- `fcvt.d.l rd, rs1, rm`: convert signed doubleword integer to double-precision (stub) (R553). -/
def execFcvtDL (_rd : BitVec 5) (_rs1 : BitVec 5) (_rm : BitVec 3) (s : State) : Result := fpStub s

/-- `fcvt.d.lu rd, rs1, rm`: convert unsigned doubleword integer to double-precision (stub) (R554). -/
def execFcvtDLu (_rd : BitVec 5) (_rs1 : BitVec 5) (_rm : BitVec 3) (s : State) : Result := fpStub s

/-- `fcvt.s.d rd, rs1, rm`: convert double-precision to single-precision (stub) (R555). -/
def execFcvtSD (_rd : BitVec 5) (_rs1 : BitVec 5) (_rm : BitVec 3) (s : State) : Result := fpStub s

/-- `fcvt.d.s rd, rs1, rm`: convert single-precision to double-precision (stub) (R556). -/
def execFcvtDS (_rd : BitVec 5) (_rs1 : BitVec 5) (_rm : BitVec 3) (s : State) : Result := fpStub s

/-- `fmadd.s rd, rs1, rs2, rs3, rm`: fused multiply-add, single-precision (stub) (R557). -/
def execFmaddS (_rd : BitVec 5) (_rs1 : BitVec 5) (_rs2 : BitVec 5) (_rs3 : BitVec 5) (_rm : BitVec 3) (s : State) : Result :=
  fpStub s

/-- `fmsub.s rd, rs1, rs2, rs3, rm`: fused multiply-subtract, single-precision (stub) (R558). -/
def execFmsubS (_rd : BitVec 5) (_rs1 : BitVec 5) (_rs2 : BitVec 5) (_rs3 : BitVec 5) (_rm : BitVec 3) (s : State) : Result :=
  fpStub s

/-- `fnmsub.s rd, rs1, rs2, rs3, rm`: negated fused multiply-subtract, single-precision (stub) (R559). -/
def execFnmsubS (_rd : BitVec 5) (_rs1 : BitVec 5) (_rs2 : BitVec 5) (_rs3 : BitVec 5) (_rm : BitVec 3) (s : State) : Result :=
  fpStub s

/-- `fnmadd.s rd, rs1, rs2, rs3, rm`: negated fused multiply-add, single-precision (stub) (R560). -/
def execFnmaddS (_rd : BitVec 5) (_rs1 : BitVec 5) (_rs2 : BitVec 5) (_rs3 : BitVec 5) (_rm : BitVec 3) (s : State) : Result :=
  fpStub s

/-- `fmadd.d rd, rs1, rs2, rs3, rm`: fused multiply-add, double-precision (stub) (R561). -/
def execFmaddD (_rd : BitVec 5) (_rs1 : BitVec 5) (_rs2 : BitVec 5) (_rs3 : BitVec 5) (_rm : BitVec 3) (s : State) : Result :=
  fpStub s

/-- `fmsub.d rd, rs1, rs2, rs3, rm`: fused multiply-subtract, double-precision (stub) (R562). -/
def execFmsubD (_rd : BitVec 5) (_rs1 : BitVec 5) (_rs2 : BitVec 5) (_rs3 : BitVec 5) (_rm : BitVec 3) (s : State) : Result :=
  fpStub s

/-- `fnmsub.d rd, rs1, rs2, rs3, rm`: negated fused multiply-subtract, double-precision (stub) (R563). -/
def execFnmsubD (_rd : BitVec 5) (_rs1 : BitVec 5) (_rs2 : BitVec 5) (_rs3 : BitVec 5) (_rm : BitVec 3) (s : State) : Result :=
  fpStub s

/-- `fnmadd.d rd, rs1, rs2, rs3, rm`: negated fused multiply-add, double-precision (stub) (R564). -/
def execFnmaddD (_rd : BitVec 5) (_rs1 : BitVec 5) (_rs2 : BitVec 5) (_rs3 : BitVec 5) (_rm : BitVec 3) (s : State) : Result :=
  fpStub s

end Sys2Proof.Machine
end

