-- ==== Sys2Proof/Machine/Integer.lean ====
section
/-! DEFINITION. The integer computational instructions (R260 to R290). -/

namespace Sys2Proof.Machine

/-- An integer instruction of `len` bytes: a value into `rd`, then the next instruction (R260). -/
def setX (len : Nat) (rd : BitVec 5) (v : Word) (s : State) : Result := finish len (s.writeX rd v)

/-- A register and immediate form: `x[rd] <- f(x[rs1], v)` (R260). -/
def immOp (len : Nat) (f : Word → Word → Word) (rd rs1 : BitVec 5) (v : Word) (s : State) : Result :=
  setX len rd (f (s.readX rs1) v) s

/-- A register and register form: `x[rd] <- f(x[rs1], x[rs2])`, both read before the write (R260). -/
def regOp (len : Nat) (f : Word → Word → Word) (rd rs1 rs2 : BitVec 5) (s : State) : Result :=
  setX len rd (f (s.readX rs1) (s.readX rs2)) s

/-- The reserved shift encoding `slli x0, x0, 0x1F` (R269, R429). -/
def isSemihostingToggle (rd rs1 : BitVec 5) (shamt : BitVec 6) : Bool := rd == 0 && rs1 == 0 && shamt == 0x1F

/-- The semihosting flag toggles on the reserved shift encoding, and on nothing else (R429). -/
def toggleSemihosting (rd rs1 : BitVec 5) (shamt : BitVec 6) (s : State) : State :=
  if isSemihostingToggle rd rs1 shamt then s.withSemihosting (!s.hart.semihosting) else s

/-- `lui rd, imm20`: load upper immediate (R261). -/
def execLui (rd : BitVec 5) (imm : BitVec 32) (s : State) : Result := setX 4 rd (sext imm) s

/-- `auipc rd, imm20`: add upper immediate to pc (R262). -/
def execAuipc (rd : BitVec 5) (imm : BitVec 32) (s : State) : Result := setX 4 rd (s.hart.pc + sext imm) s

/-- `addi rd, rs1, imm`: add immediate (R263). -/
def execAddi (rd : BitVec 5) (rs1 : BitVec 5) (imm : BitVec 12) (s : State) : Result :=
  immOp 4 aluAdd rd rs1 (sext imm) s

/-- `slti rd, rs1, imm`: set if less than immediate, signed (R264). -/
def execSlti (rd : BitVec 5) (rs1 : BitVec 5) (imm : BitVec 12) (s : State) : Result :=
  immOp 4 aluSlt rd rs1 (sext imm) s

/-- `sltiu rd, rs1, imm`: set if less than immediate, unsigned (R265). -/
def execSltiu (rd : BitVec 5) (rs1 : BitVec 5) (imm : BitVec 12) (s : State) : Result :=
  immOp 4 aluSltu rd rs1 (sext imm) s

/-- `xori rd, rs1, imm`: exclusive or immediate (R266). -/
def execXori (rd : BitVec 5) (rs1 : BitVec 5) (imm : BitVec 12) (s : State) : Result :=
  immOp 4 aluXor rd rs1 (sext imm) s

/-- `ori rd, rs1, imm`: or immediate (R267). -/
def execOri (rd : BitVec 5) (rs1 : BitVec 5) (imm : BitVec 12) (s : State) : Result :=
  immOp 4 aluOr rd rs1 (sext imm) s

/-- `andi rd, rs1, imm`: and immediate (R268). -/
def execAndi (rd : BitVec 5) (rs1 : BitVec 5) (imm : BitVec 12) (s : State) : Result :=
  immOp 4 aluAnd rd rs1 (sext imm) s

/-- `slli rd, rs1, shamt`: shift left logical immediate (R269, R429). -/
def execSlli (rd : BitVec 5) (rs1 : BitVec 5) (shamt : BitVec 6) (s : State) : Result :=
  immOp 4 aluSll rd rs1 (zext shamt) (toggleSemihosting rd rs1 shamt s)

/-- `srli rd, rs1, shamt`: shift right logical immediate (R270). -/
def execSrli (rd : BitVec 5) (rs1 : BitVec 5) (shamt : BitVec 6) (s : State) : Result :=
  immOp 4 aluSrl rd rs1 (zext shamt) s

/-- `srai rd, rs1, shamt`: shift right arithmetic immediate (R271). -/
def execSrai (rd : BitVec 5) (rs1 : BitVec 5) (shamt : BitVec 6) (s : State) : Result :=
  immOp 4 aluSra rd rs1 (zext shamt) s

/-- `add rd, rs1, rs2`: add (R272). -/
def execAdd (rd : BitVec 5) (rs1 : BitVec 5) (rs2 : BitVec 5) (s : State) : Result := regOp 4 aluAdd rd rs1 rs2 s

/-- `sub rd, rs1, rs2`: subtract (R273). -/
def execSub (rd : BitVec 5) (rs1 : BitVec 5) (rs2 : BitVec 5) (s : State) : Result := regOp 4 aluSub rd rs1 rs2 s

/-- `sll rd, rs1, rs2`: shift left logical (R274). -/
def execSll (rd : BitVec 5) (rs1 : BitVec 5) (rs2 : BitVec 5) (s : State) : Result := regOp 4 aluSll rd rs1 rs2 s

/-- `slt rd, rs1, rs2`: set if less than, signed (R275). -/
def execSlt (rd : BitVec 5) (rs1 : BitVec 5) (rs2 : BitVec 5) (s : State) : Result := regOp 4 aluSlt rd rs1 rs2 s

/-- `sltu rd, rs1, rs2`: set if less than, unsigned (R276). -/
def execSltu (rd : BitVec 5) (rs1 : BitVec 5) (rs2 : BitVec 5) (s : State) : Result := regOp 4 aluSltu rd rs1 rs2 s

/-- `xor rd, rs1, rs2`: exclusive or (R277). -/
def execXor (rd : BitVec 5) (rs1 : BitVec 5) (rs2 : BitVec 5) (s : State) : Result := regOp 4 aluXor rd rs1 rs2 s

/-- `srl rd, rs1, rs2`: shift right logical (R278). -/
def execSrl (rd : BitVec 5) (rs1 : BitVec 5) (rs2 : BitVec 5) (s : State) : Result := regOp 4 aluSrl rd rs1 rs2 s

/-- `sra rd, rs1, rs2`: shift right arithmetic (R279). -/
def execSra (rd : BitVec 5) (rs1 : BitVec 5) (rs2 : BitVec 5) (s : State) : Result := regOp 4 aluSra rd rs1 rs2 s

/-- `or rd, rs1, rs2`: or (R280). -/
def execOr (rd : BitVec 5) (rs1 : BitVec 5) (rs2 : BitVec 5) (s : State) : Result := regOp 4 aluOr rd rs1 rs2 s

/-- `and rd, rs1, rs2`: and (R281). -/
def execAnd (rd : BitVec 5) (rs1 : BitVec 5) (rs2 : BitVec 5) (s : State) : Result := regOp 4 aluAnd rd rs1 rs2 s

/-- `addiw rd, rs1, imm`: add immediate, word (R282). -/
def execAddiw (rd : BitVec 5) (rs1 : BitVec 5) (imm : BitVec 12) (s : State) : Result :=
  immOp 4 aluAddw rd rs1 (sext imm) s

/-- `slliw rd, rs1, shamt`: shift left logical immediate, word (R283). -/
def execSlliw (rd : BitVec 5) (rs1 : BitVec 5) (shamt : BitVec 5) (s : State) : Result :=
  immOp 4 aluSllw rd rs1 (zext shamt) s

/-- `srliw rd, rs1, shamt`: shift right logical immediate, word (R284). -/
def execSrliw (rd : BitVec 5) (rs1 : BitVec 5) (shamt : BitVec 5) (s : State) : Result :=
  immOp 4 aluSrlw rd rs1 (zext shamt) s

/-- `sraiw rd, rs1, shamt`: shift right arithmetic immediate, word (R285). -/
def execSraiw (rd : BitVec 5) (rs1 : BitVec 5) (shamt : BitVec 5) (s : State) : Result :=
  immOp 4 aluSraw rd rs1 (zext shamt) s

/-- `addw rd, rs1, rs2`: add, word (R286). -/
def execAddw (rd : BitVec 5) (rs1 : BitVec 5) (rs2 : BitVec 5) (s : State) : Result := regOp 4 aluAddw rd rs1 rs2 s

/-- `subw rd, rs1, rs2`: subtract, word (R287). -/
def execSubw (rd : BitVec 5) (rs1 : BitVec 5) (rs2 : BitVec 5) (s : State) : Result := regOp 4 aluSubw rd rs1 rs2 s

/-- `sllw rd, rs1, rs2`: shift left logical, word (R288). -/
def execSllw (rd : BitVec 5) (rs1 : BitVec 5) (rs2 : BitVec 5) (s : State) : Result := regOp 4 aluSllw rd rs1 rs2 s

/-- `srlw rd, rs1, rs2`: shift right logical, word (R289). -/
def execSrlw (rd : BitVec 5) (rs1 : BitVec 5) (rs2 : BitVec 5) (s : State) : Result := regOp 4 aluSrlw rd rs1 rs2 s

/-- `sraw rd, rs1, rs2`: shift right arithmetic, word (R290). -/
def execSraw (rd : BitVec 5) (rs1 : BitVec 5) (rs2 : BitVec 5) (s : State) : Result := regOp 4 aluSraw rd rs1 rs2 s

end Sys2Proof.Machine
end

