-- ==== Sys2Proof/Machine/System.lean ====
section
/-! DEFINITION. The system instructions (R420 to R429). -/

namespace Sys2Proof.Machine

/-- The environment call of a mode (R423). -/
def ecallExc : Priv → Exc
  | .user => .ecallFromU
  | .supervisor => .ecallFromS
  | .machine => .ecallFromM

/-- `ebreak` at either length: a semihosting call is refused, else Breakpoint with the instruction's own address (R424,
R471). -/
def breakpoint (s : State) : Result :=
  if s.hart.semihosting then .refused .semihostingCall else raiseExc .breakpoint s.hart.pc s

/-- The privilege `sret` returns to (R425). -/
def sretPriv (status : Word) : Priv := if statusSPP status then .supervisor else .user

/-- `fence pred, succ`: memory ordering fence (R421). -/
def execFence (_fm : BitVec 4) (_pred : BitVec 4) (_succ : BitVec 4) (_rs1 : BitVec 5) (_rd : BitVec 5) (s : State) : Result :=
  finish 4 s

/-- `fence.i`: instruction-fetch fence (R422). -/
def execFenceI (_imm : BitVec 12) (_rs1 : BitVec 5) (_rd : BitVec 5) (s : State) : Result := finish 4 s

/-- `ecall`: environment call (R423). -/
def execEcall (s : State) : Result := raiseExc (ecallExc s.hart.priv) 0 s

/-- `ebreak`: breakpoint, or semihosting call (R424). -/
def execEbreak (s : State) : Result := breakpoint s

/-- `sret`: return from supervisor trap (R425). -/
def execSret (s : State) : Result :=
  if s.hart.priv = .user then illegal s
  else trapReturn (sretPriv s.hart.csr.mstatus) (statusSret s.hart.csr.mstatus) s.hart.csr.sepc s

/-- `mret`: return from machine trap (R426, R199, log entry 14). -/
def execMret (s : State) : Result :=
  if s.hart.priv ≠ .machine then illegal s
  else
    match Priv.ofCode (statusMPP s.hart.csr.mstatus) with
    | some p => trapReturn p (statusMret s.hart.csr.mstatus) s.hart.csr.mepc s
    | none => .fault .illegalPrivilege

/-- `wfi`: wait for interrupt (R427). -/
def execWfi (s : State) : Result := finish 4 (s.withSleeping true)

/-- `sfence.vma rs1, rs2`: flush translation cache (R428). The rule does not mention the pc: it advances by the length of the
instruction (R203). -/
def execSfenceVma (rs1 : BitVec 5) (rs2 : BitVec 5) (s : State) : Result :=
  if s.hart.priv = .user then illegal s
  else finish s.len.bytes (s.withTlb (tlbFlush (s.readX rs1) ((s.readX rs2).toNat % 2 ^ 16) s.hart.tlb))

end Sys2Proof.Machine
end

