-- ==== Sys2Proof/Machine/Compressed.lean ====
section
/-! DEFINITION. The compressed instructions (R440 to R476): each performs its 32-bit expansion at length 2 (R440); a primed register
is `8 + k` (R192). -/

namespace Sys2Proof.Machine

/-- `c.addi4spn rd', nzuimm`: add scaled immediate to stack pointer, non-destructive (R441). -/
def execCAddi4spn (rdP : BitVec 3) (imm : BitVec 10) (s : State) : Result :=
  immOp 2 aluAdd (primed rdP) 2 (zext imm) s

/-- `c.fld rd', uimm(rs1')`: load double-precision, compressed (R442). -/
def execCFld (rdP : BitVec 3) (rs1P : BitVec 3) (imm : BitVec 8) (s : State) : Result :=
  fpGate (loadF 2 8 id (primed rdP) (effectiveAddress (primed rs1P) (zext imm) s)) s

/-- `c.lw rd', uimm(rs1')`: load word, compressed (R443). -/
def execCLw (rdP : BitVec 3) (rs1P : BitVec 3) (imm : BitVec 7) (s : State) : Result :=
  load 2 4 (sextBytes 4) (primed rdP) (effectiveAddress (primed rs1P) (zext imm) s) s

/-- `c.ld rd', uimm(rs1')`: load doubleword, compressed (R444). -/
def execCLd (rdP : BitVec 3) (rs1P : BitVec 3) (imm : BitVec 8) (s : State) : Result :=
  load 2 8 id (primed rdP) (effectiveAddress (primed rs1P) (zext imm) s) s

/-- `c.fsd rs2', uimm(rs1')`: store double-precision, compressed (R445). -/
def execCFsd (rs2P : BitVec 3) (rs1P : BitVec 3) (imm : BitVec 8) (s : State) : Result :=
  fpGate (store 2 8 (s.readF (primed rs2P)) (effectiveAddress (primed rs1P) (zext imm) s)) s

/-- `c.sw rs2', uimm(rs1')`: store word, compressed (R446). -/
def execCSw (rs2P : BitVec 3) (rs1P : BitVec 3) (imm : BitVec 7) (s : State) : Result :=
  store 2 4 (s.readX (primed rs2P)) (effectiveAddress (primed rs1P) (zext imm) s) s

/-- `c.sd rs2', uimm(rs1')`: store doubleword, compressed (R447). -/
def execCSd (rs2P : BitVec 3) (rs1P : BitVec 3) (imm : BitVec 8) (s : State) : Result :=
  store 2 8 (s.readX (primed rs2P)) (effectiveAddress (primed rs1P) (zext imm) s) s

/-- `c.addi rd, nzimm`: add immediate, compressed (R448). -/
def execCAddi (rd : BitVec 5) (imm : BitVec 6) (s : State) : Result := immOp 2 aluAdd rd rd (sext imm) s

/-- `c.addiw rd, imm`: add immediate word, compressed (R449). -/
def execCAddiw (rd : BitVec 5) (imm : BitVec 6) (s : State) : Result := immOp 2 aluAddw rd rd (sext imm) s

/-- `c.li rd, imm`: load immediate, compressed (R450). -/
def execCLi (rd : BitVec 5) (imm : BitVec 6) (s : State) : Result := immOp 2 aluAdd rd 0 (sext imm) s

/-- `c.addi16sp nzimm`: adjust stack pointer, compressed (R451). -/
def execCAddi16sp (imm : BitVec 10) (s : State) : Result := immOp 2 aluAdd 2 2 (sext imm) s

/-- `c.lui rd, nzimm`: load upper immediate, compressed (R452). -/
def execCLui (rd : BitVec 5) (imm : BitVec 18) (s : State) : Result := setX 2 rd (sext imm) s

/-- `c.srli rd', shamt`: shift right logical immediate, compressed (R453). -/
def execCSrli (rdP : BitVec 3) (shamt : BitVec 6) (s : State) : Result :=
  immOp 2 aluSrl (primed rdP) (primed rdP) (zext shamt) s

/-- `c.srai rd', shamt`: shift right arithmetic immediate, compressed (R454). -/
def execCSrai (rdP : BitVec 3) (shamt : BitVec 6) (s : State) : Result :=
  immOp 2 aluSra (primed rdP) (primed rdP) (zext shamt) s

/-- `c.andi rd', imm`: and immediate, compressed (R455). -/
def execCAndi (rdP : BitVec 3) (imm : BitVec 6) (s : State) : Result :=
  immOp 2 aluAnd (primed rdP) (primed rdP) (sext imm) s

/-- `c.sub rd', rs2'`: subtract, compressed (R456). -/
def execCSub (rdP : BitVec 3) (rs2P : BitVec 3) (s : State) : Result :=
  regOp 2 aluSub (primed rdP) (primed rdP) (primed rs2P) s

/-- `c.xor rd', rs2'`: exclusive or, compressed (R457). -/
def execCXor (rdP : BitVec 3) (rs2P : BitVec 3) (s : State) : Result :=
  regOp 2 aluXor (primed rdP) (primed rdP) (primed rs2P) s

/-- `c.or rd', rs2'`: or, compressed (R458). -/
def execCOr (rdP : BitVec 3) (rs2P : BitVec 3) (s : State) : Result :=
  regOp 2 aluOr (primed rdP) (primed rdP) (primed rs2P) s

/-- `c.and rd', rs2'`: and, compressed (R459). -/
def execCAnd (rdP : BitVec 3) (rs2P : BitVec 3) (s : State) : Result :=
  regOp 2 aluAnd (primed rdP) (primed rdP) (primed rs2P) s

/-- `c.subw rd', rs2'`: subtract word, compressed (R460). -/
def execCSubw (rdP : BitVec 3) (rs2P : BitVec 3) (s : State) : Result :=
  regOp 2 aluSubw (primed rdP) (primed rdP) (primed rs2P) s

/-- `c.addw rd', rs2'`: add word, compressed (R461). -/
def execCAddw (rdP : BitVec 3) (rs2P : BitVec 3) (s : State) : Result :=
  regOp 2 aluAddw (primed rdP) (primed rdP) (primed rs2P) s

/-- `c.j offset`: jump, compressed (R462). -/
def execCJ (imm : BitVec 12) (s : State) : Result := link 2 0 (s.hart.pc + sext imm) s

/-- `c.beqz rs1', offset`: branch if zero, compressed (R463). -/
def execCBeqz (rs1P : BitVec 3) (imm : BitVec 9) (s : State) : Result :=
  branch 2 (s.readX (primed rs1P) == s.readX 0) (sext imm) s

/-- `c.bnez rs1', offset`: branch if not zero, compressed (R464). -/
def execCBnez (rs1P : BitVec 3) (imm : BitVec 9) (s : State) : Result :=
  branch 2 (s.readX (primed rs1P) != s.readX 0) (sext imm) s

/-- `c.slli rd, shamt`: shift left logical immediate, compressed (R465). -/
def execCSlli (rd : BitVec 5) (shamt : BitVec 6) (s : State) : Result := immOp 2 aluSll rd rd (zext shamt) s

/-- `c.fldsp rd, uimm(sp)`: load double-precision from stack, compressed (R466). -/
def execCFldsp (rd : BitVec 5) (imm : BitVec 9) (s : State) : Result :=
  fpGate (loadF 2 8 id rd (effectiveAddress 2 (zext imm) s)) s

/-- `c.lwsp rd, uimm(sp)`: load word from stack, compressed (R467). -/
def execCLwsp (rd : BitVec 5) (imm : BitVec 8) (s : State) : Result :=
  load 2 4 (sextBytes 4) rd (effectiveAddress 2 (zext imm) s) s

/-- `c.ldsp rd, uimm(sp)`: load doubleword from stack, compressed (R468). -/
def execCLdsp (rd : BitVec 5) (imm : BitVec 9) (s : State) : Result :=
  load 2 8 id rd (effectiveAddress 2 (zext imm) s) s

/-- `c.jr rs1`: jump register, compressed (R469). -/
def execCJr (rs1 : BitVec 5) (s : State) : Result := link 2 0 (clearBit0 (s.readX rs1)) s

/-- `c.mv rd, rs2`: move register, compressed (R470). -/
def execCMv (rd : BitVec 5) (rs2 : BitVec 5) (s : State) : Result := regOp 2 aluAdd rd 0 rs2 s

/-- `c.ebreak`: breakpoint, compressed (R471). -/
def execCEbreak (s : State) : Result := breakpoint s

/-- `c.jalr rs1`: jump and link register, compressed (R472). -/
def execCJalr (rs1 : BitVec 5) (s : State) : Result := link 2 1 (clearBit0 (s.readX rs1)) s

/-- `c.add rd, rs2`: add registers, compressed (R473). -/
def execCAdd (rd : BitVec 5) (rs2 : BitVec 5) (s : State) : Result := regOp 2 aluAdd rd rd rs2 s

/-- `c.fsdsp rs2, uimm(sp)`: store double-precision to stack, compressed (R474). -/
def execCFsdsp (rs2 : BitVec 5) (imm : BitVec 9) (s : State) : Result :=
  fpGate (store 2 8 (s.readF rs2) (effectiveAddress 2 (zext imm) s)) s

/-- `c.swsp rs2, uimm(sp)`: store word to stack, compressed (R475). -/
def execCSwsp (rs2 : BitVec 5) (imm : BitVec 8) (s : State) : Result :=
  store 2 4 (s.readX rs2) (effectiveAddress 2 (zext imm) s) s

/-- `c.sdsp rs2, uimm(sp)`: store doubleword to stack, compressed (R476). -/
def execCSdsp (rs2 : BitVec 5) (imm : BitVec 9) (s : State) : Result :=
  store 2 8 (s.readX rs2) (effectiveAddress 2 (zext imm) s) s

end Sys2Proof.Machine
end

