-- ==== Sys2Proof/Machine/MulDiv.lean ====
section
/-! DEFINITION. The multiply and divide instructions (R360 to R373). None of them can raise. -/

namespace Sys2Proof.Machine

/-- `mul rd, rs1, rs2`: multiply, low 64 bits (R361). -/
def execMul (rd : BitVec 5) (rs1 : BitVec 5) (rs2 : BitVec 5) (s : State) : Result := regOp 4 mulLow rd rs1 rs2 s

/-- `mulh rd, rs1, rs2`: multiply high, signed × signed (R362). -/
def execMulh (rd : BitVec 5) (rs1 : BitVec 5) (rs2 : BitVec 5) (s : State) : Result := regOp 4 mulHigh rd rs1 rs2 s

/-- `mulhsu rd, rs1, rs2`: multiply high, signed × unsigned (R363). -/
def execMulhsu (rd : BitVec 5) (rs1 : BitVec 5) (rs2 : BitVec 5) (s : State) : Result :=
  regOp 4 mulHighSU rd rs1 rs2 s

/-- `mulhu rd, rs1, rs2`: multiply high, unsigned × unsigned (R364). -/
def execMulhu (rd : BitVec 5) (rs1 : BitVec 5) (rs2 : BitVec 5) (s : State) : Result := regOp 4 mulHighU rd rs1 rs2 s

/-- `div rd, rs1, rs2`: divide, signed (R365). -/
def execDiv (rd : BitVec 5) (rs1 : BitVec 5) (rs2 : BitVec 5) (s : State) : Result := regOp 4 divSigned rd rs1 rs2 s

/-- `divu rd, rs1, rs2`: divide, unsigned (R366). -/
def execDivu (rd : BitVec 5) (rs1 : BitVec 5) (rs2 : BitVec 5) (s : State) : Result :=
  regOp 4 divUnsigned rd rs1 rs2 s

/-- `rem rd, rs1, rs2`: remainder, signed (R367). -/
def execRem (rd : BitVec 5) (rs1 : BitVec 5) (rs2 : BitVec 5) (s : State) : Result := regOp 4 remSigned rd rs1 rs2 s

/-- `remu rd, rs1, rs2`: remainder, unsigned (R368). -/
def execRemu (rd : BitVec 5) (rs1 : BitVec 5) (rs2 : BitVec 5) (s : State) : Result :=
  regOp 4 remUnsigned rd rs1 rs2 s

/-- `mulw rd, rs1, rs2`: multiply word (R369). -/
def execMulw (rd : BitVec 5) (rs1 : BitVec 5) (rs2 : BitVec 5) (s : State) : Result := regOp 4 mulWord rd rs1 rs2 s

/-- `divw rd, rs1, rs2`: divide word, signed (R370). -/
def execDivw (rd : BitVec 5) (rs1 : BitVec 5) (rs2 : BitVec 5) (s : State) : Result :=
  regOp 4 (wordForm divSigned) rd rs1 rs2 s

/-- `divuw rd, rs1, rs2`: divide word, unsigned (R371). -/
def execDivuw (rd : BitVec 5) (rs1 : BitVec 5) (rs2 : BitVec 5) (s : State) : Result :=
  regOp 4 (wordForm divUnsigned) rd rs1 rs2 s

/-- `remw rd, rs1, rs2`: remainder word, signed (R372). -/
def execRemw (rd : BitVec 5) (rs1 : BitVec 5) (rs2 : BitVec 5) (s : State) : Result :=
  regOp 4 (wordForm remSigned) rd rs1 rs2 s

/-- `remuw rd, rs1, rs2`: remainder word, unsigned (R373). -/
def execRemuw (rd : BitVec 5) (rs1 : BitVec 5) (rs2 : BitVec 5) (s : State) : Result :=
  regOp 4 (wordForm remUnsigned) rd rs1 rs2 s

end Sys2Proof.Machine
end

