-- ==== Sys2Proof/Machine/Stubs.lean ====
section
/-! DEFINITION. The instructions the source leaves unsupported: hypervisor, cache management and vector (R600 to R628). -/

namespace Sys2Proof.Machine

/-- A hypervisor, cache-management or vector instruction: IllegalInstruction, in every mode, and nothing read or written
(R600). -/
def unsupported (s : State) : Result := illegal s

/-- `hfence.vvma rs1, rs2`: hypervisor fence for guest virtual memory (stub) (R601). -/
def execHfenceVvma (_rs1 : BitVec 5) (_rs2 : BitVec 5) (s : State) : Result := unsupported s

/-- `hfence.gvma rs1, rs2`: hypervisor fence for guest physical memory (stub) (R602). -/
def execHfenceGvma (_rs1 : BitVec 5) (_rs2 : BitVec 5) (s : State) : Result := unsupported s

/-- `hlv.b rd, rs1`: hypervisor virtual-machine load byte (stub) (R603). -/
def execHlvB (_rd : BitVec 5) (_rs1 : BitVec 5) (s : State) : Result := unsupported s

/-- `hlv.bu rd, rs1`: hypervisor virtual-machine load byte, unsigned (stub) (R604). -/
def execHlvBu (_rd : BitVec 5) (_rs1 : BitVec 5) (s : State) : Result := unsupported s

/-- `hlv.h rd, rs1`: hypervisor virtual-machine load halfword (stub) (R605). -/
def execHlvH (_rd : BitVec 5) (_rs1 : BitVec 5) (s : State) : Result := unsupported s

/-- `hlv.hu rd, rs1`: hypervisor virtual-machine load halfword, unsigned (stub) (R606). -/
def execHlvHu (_rd : BitVec 5) (_rs1 : BitVec 5) (s : State) : Result := unsupported s

/-- `hlvx.hu rd, rs1`: hypervisor virtual-machine load halfword for execute (stub) (R607). -/
def execHlvxHu (_rd : BitVec 5) (_rs1 : BitVec 5) (s : State) : Result := unsupported s

/-- `hlv.w rd, rs1`: hypervisor virtual-machine load word (stub) (R608). -/
def execHlvW (_rd : BitVec 5) (_rs1 : BitVec 5) (s : State) : Result := unsupported s

/-- `hlv.wu rd, rs1`: hypervisor virtual-machine load word, unsigned (stub) (R609). -/
def execHlvWu (_rd : BitVec 5) (_rs1 : BitVec 5) (s : State) : Result := unsupported s

/-- `hlvx.wu rd, rs1`: hypervisor virtual-machine load word for execute (stub) (R610). -/
def execHlvxWu (_rd : BitVec 5) (_rs1 : BitVec 5) (s : State) : Result := unsupported s

/-- `hlv.d rd, rs1`: hypervisor virtual-machine load doubleword (stub) (R611). -/
def execHlvD (_rd : BitVec 5) (_rs1 : BitVec 5) (s : State) : Result := unsupported s

/-- `hsv.b rs1, rs2`: hypervisor virtual-machine store byte (stub) (R612). -/
def execHsvB (_rs1 : BitVec 5) (_rs2 : BitVec 5) (s : State) : Result := unsupported s

/-- `hsv.h rs1, rs2`: hypervisor virtual-machine store halfword (stub) (R613). -/
def execHsvH (_rs1 : BitVec 5) (_rs2 : BitVec 5) (s : State) : Result := unsupported s

/-- `hsv.w rs1, rs2`: hypervisor virtual-machine store word (stub) (R614). -/
def execHsvW (_rs1 : BitVec 5) (_rs2 : BitVec 5) (s : State) : Result := unsupported s

/-- `hsv.d rs1, rs2`: hypervisor virtual-machine store doubleword (stub) (R615). -/
def execHsvD (_rs1 : BitVec 5) (_rs2 : BitVec 5) (s : State) : Result := unsupported s

/-- `cbo.inval rs1`: cache block invalidate (stub) (R616). -/
def execCboInval (_rs1 : BitVec 5) (s : State) : Result := unsupported s

/-- `cbo.clean rs1`: cache block clean (stub) (R617). -/
def execCboClean (_rs1 : BitVec 5) (s : State) : Result := unsupported s

/-- `cbo.flush rs1`: cache block flush (stub) (R618). -/
def execCboFlush (_rs1 : BitVec 5) (s : State) : Result := unsupported s

/-- `cbo.zero rs1`: cache block zero (stub) (R619). -/
def execCboZero (_rs1 : BitVec 5) (s : State) : Result := unsupported s

/-- `vector-op`: vector arithmetic and configuration class (OP-V) (stub) (R620). -/
def execVectorOp (s : State) : Result := unsupported s

/-- `vector-load-w8`: vector load class, element width 8 (stub) (R621). -/
def execVectorLoadW8 (s : State) : Result := unsupported s

/-- `vector-load-w16`: vector load class, element width 16 (stub) (R622). -/
def execVectorLoadW16 (s : State) : Result := unsupported s

/-- `vector-load-w32`: vector load class, element width 32 (stub) (R623). -/
def execVectorLoadW32 (s : State) : Result := unsupported s

/-- `vector-load-w64`: vector load class, element width 64 (stub) (R624). -/
def execVectorLoadW64 (s : State) : Result := unsupported s

/-- `vector-store-w8`: vector store class, element width 8 (stub) (R625). -/
def execVectorStoreW8 (s : State) : Result := unsupported s

/-- `vector-store-w16`: vector store class, element width 16 (stub) (R626). -/
def execVectorStoreW16 (s : State) : Result := unsupported s

/-- `vector-store-w32`: vector store class, element width 32 (stub) (R627). -/
def execVectorStoreW32 (s : State) : Result := unsupported s

/-- `vector-store-w64`: vector store class, element width 64 (stub) (R628). -/
def execVectorStoreW64 (s : State) : Result := unsupported s

end Sys2Proof.Machine
end

