-- ==== Sys2Proof/Machine/Csr.lean ====
section
/-! DEFINITION. The CSR file (R50 to R68): the computed registers, the value of an address of the configured table, the access
checks and the masked write. A view is an address whose accesses go to its base. -/

namespace Sys2Proof.Machine

/-- The interrupt lines at their positions in `mip` (R54). -/
def IrqLines.bits (l : IrqLines) : Word :=
  (ofFlag l.msip <<< 3) ||| (ofFlag l.mtip <<< 7) ||| (ofFlag l.seip <<< 9) ||| (ofFlag l.meip <<< 11)

/-- The getter of `mip`: the latch or-ed with the lines (R54). -/
def mipValue (h : Hart) : Word := h.csr.mipLatch ||| h.lines.bits

/-- A computed register has a setter: without one it is read-only (R50, R52). -/
def csrHasSetter : CsrComputed → Bool
  | .frm => true
  | .mip => true
  | .cycle => false
  | .time => false
  | .instret => false

/-- The getter of a computed register, with the state after it: `cycle` and `instret` take a draw (R52, R54, R59,
R665). -/
def csrGetter (c : CsrComputed) (s : State) : Word × State :=
  match c with
  | .frm => (field s.hart.csr.fcsr 5 3, s)
  | .cycle => (s.draw, s.nextDraw)
  | .time => (s.mtime, s)
  | .instret => (s.draw, s.nextDraw)
  | .mip => (mipValue s.hart, s)

/-- The setter of a computed register: `frm` stores bits 2:0 into `fcsr[7:5]` (R59), `mip` stores its latch bits (R54). -/
def csrSetter (c : CsrComputed) (v : Word) (s : State) : State :=
  match c with
  | .frm => s.withCsr { s.hart.csr with fcsr := setField s.hart.csr.fcsr 5 3 v }
  | .mip => s.withCsr { s.hart.csr with mipLatch := v &&& 0x222 }
  | .cycle => s
  | .time => s
  | .instret => s

/-- `Value(a)` (R60, R63), following the chain of views for at most `n` addresses; none if an address of the chain is
undefined. -/
def csrValueFrom (tbl : List CsrRow) : Nat → BitVec 12 → State → Option (Word × State)
  | 0, _, _ => none
  | n + 1, a, s =>
    match csrFind tbl a with
    | none => none
    | some r =>
      match r.kind with
      | .storage => some (s.hart.csr.get (.ofAddr a), s)
      | .view base =>
        match csrValueFrom tbl n base s with
        | some (v, s') => some (v &&& r.mask, s')
        | none => none
      | .computed c => some (csrGetter c s)

/-- The terminal row of a chain of views, and the product of the masks from `a` to it (R61, R64); none if the chain is longer
than `n` addresses or meets an undefined one. -/
def csrTerminalFrom (tbl : List CsrRow) : Nat → BitVec 12 → Option (CsrRow × Word)
  | 0, _ => none
  | n + 1, a =>
    match csrFind tbl a with
    | none => none
    | some r =>
      match r.kind with
      | .view base =>
        match csrTerminalFrom tbl n base with
        | some (t, m) => some (t, r.mask &&& m)
        | none => none
      | _ => some (r, r.mask)

/-- `Value(a)`, with the state after it. -/
def csrValue (a : BitVec 12) (s : State) : Option (Word × State) :=
  csrValueFrom s.cfg.csrTable s.cfg.csrTable.length a s

/-- The terminal row and the write mask of an address in a table. -/
def csrTerminal (tbl : List CsrRow) (a : BitVec 12) : Option (CsrRow × Word) := csrTerminalFrom tbl tbl.length a

/-- The checks of `CsrGet` (R60): the address is defined and its privilege field is at most the current privilege. -/
def csrReadable (tbl : List CsrRow) (a : BitVec 12) (priv : Priv) : Bool :=
  (csrFind tbl a).isSome && decide (csrPrivilege a ≤ priv.code)

/-- A row whose writes are performed: not a computed register with a getter and no setter (R61). -/
def csrRowWritable (r : CsrRow) : Bool :=
  match r.kind with
  | .computed c => csrHasSetter c
  | _ => true

/-- The checks (3) and (4) of `CsrPut` (R61): not encoded read-only, and its terminal address has no getter without a
setter. -/
def csrWritable (tbl : List CsrRow) (a : BitVec 12) : Bool :=
  !csrReadOnly a &&
  match csrTerminal tbl a with
  | some (t, _) => csrRowWritable t
  | none => false

/-- The performed write of a terminal row under a mask (R62, R64, R65): the new value keeps the bits outside the mask; a
storage register holds it, a computed one hands it to its setter. -/
def csrRowWrite (t : CsrRow) (m v : Word) (s : State) : State :=
  match t.kind with
  | .storage =>
    s.withCsr (s.hart.csr.set (.ofAddr t.addr) (maskedWrite (s.hart.csr.get (.ofAddr t.addr)) m v))
  | .computed c => csrSetter c (maskedWrite (csrGetter c s).1 m v) (csrGetter c s).2
  | .view _ => s

/-- The performed write of an address (R62, R64, R65): a write of its terminal row under the product of the masks. -/
def csrWrite (a : BitVec 12) (v : Word) (s : State) : State :=
  match csrTerminal s.cfg.csrTable a with
  | some (t, m) => csrRowWrite t m v s
  | none => s

/-- A table each of whose chains ends, within as many addresses as the table has, at an address that is no view: no chain is
cyclic (R67). DESIGN CHOICE, safe: the spec is silent on a chain that ends at an undefined address, without a cycle; such a
table fails too, and is refused under the same name (R67, R691, log entry 22). -/
def csrAcyclic (tbl : List CsrRow) : Bool := tbl.all fun r => (csrTerminal tbl r.addr).isSome

/-- A CSR instruction (R410): the checks, the read if it reads, the write of `new old` if it writes, the old value into
`rd` if it read. Any failed check raises IllegalInstruction. A chain without a terminal address, of a table that is refused
when loaded, is refused here too (R67). -/
def csrInstr (reads writes : Bool) (a : BitVec 12) (rd : BitVec 5) (new : Word → Word) (s : State) : Result :=
  if csrReadable s.cfg.csrTable a s.hart.priv then
    match csrTerminal s.cfg.csrTable a with
    | none => .refused .aliasCycle
    | some _ =>
      if !writes || csrWritable s.cfg.csrTable a then
        if reads then
          match csrValue a s with
          | some (old, s1) => finish 4 ((if writes then csrWrite a (new old) s1 else s1).writeX rd old)
          | none => .refused .aliasCycle
        else finish 4 (if writes then csrWrite a (new 0) s else s)
      else illegal s
  else illegal s

end Sys2Proof.Machine
end

