-- ==== Sys2Proof/Machine/Zicsr.lean ====
section
/-! DEFINITION. The CSR instructions (R410 to R416): which of them read and write is decided by the encoding. -/

namespace Sys2Proof.Machine

/-- `csrrw rd, csr, rs1`: atomic read/write CSR (R411). -/
def execCsrrw (rd : BitVec 5) (rs1 : BitVec 5) (csr : BitVec 12) (s : State) : Result :=
  csrInstr (rd != 0) true csr rd (fun _ => s.readX rs1) s

/-- `csrrs rd, csr, rs1`: atomic read and set bits in CSR (R412). -/
def execCsrrs (rd : BitVec 5) (rs1 : BitVec 5) (csr : BitVec 12) (s : State) : Result :=
  csrInstr true (rs1 != 0) csr rd (fun old => old ||| s.readX rs1) s

/-- `csrrc rd, csr, rs1`: atomic read and clear bits in CSR (R413). -/
def execCsrrc (rd : BitVec 5) (rs1 : BitVec 5) (csr : BitVec 12) (s : State) : Result :=
  csrInstr true (rs1 != 0) csr rd (fun old => old &&& ~~~(s.readX rs1)) s

/-- `csrrwi rd, csr, uimm`: atomic read/write CSR, immediate (R414). -/
def execCsrrwi (rd : BitVec 5) (uimm : BitVec 5) (csr : BitVec 12) (s : State) : Result :=
  csrInstr (rd != 0) true csr rd (fun _ => zext uimm) s

/-- `csrrsi rd, csr, uimm`: atomic read and set bits in CSR, immediate (R415). -/
def execCsrrsi (rd : BitVec 5) (uimm : BitVec 5) (csr : BitVec 12) (s : State) : Result :=
  csrInstr true (uimm != 0) csr rd (fun old => old ||| zext uimm) s

/-- `csrrci rd, csr, uimm`: atomic read and clear bits in CSR, immediate (R416). -/
def execCsrrci (rd : BitVec 5) (uimm : BitVec 5) (csr : BitVec 12) (s : State) : Result :=
  csrInstr true (uimm != 0) csr rd (fun old => old &&& ~~~(zext uimm)) s

end Sys2Proof.Machine
end

