-- ==== Sys2Proof/Machine/Fetch.lean ====
section
/-! DEFINITION. Fetching an instruction word (R200), and placing one where the next fetch reads it. -/

namespace Sys2Proof.Machine

/-- One 16-bit parcel at a virtual address, through translation and the bus (R107, R200). -/
def fetchParcel (va : Word) (s : State) : Res Insn :=
  (translate va .fetch s).bind fun pa s1 => (busRead pa 2 s1).bind fun v s2 => .ok (v.setWidth 32) s2

/-- `Fetch(p)`: the word and its length (R200). Each parcel is translated by itself, so a fault of the second has `p + 2` as
its trap value. -/
def fetch (s : State) : Res (Insn × Nat) :=
  (fetchParcel s.hart.pc s).bind fun lo s1 =>
    if wordLength lo = 2 then .ok (lo, 2) s1
    else (fetchParcel (s.hart.pc + 2) s1).bind fun hi s2 => .ok (joinParcels lo hi, 4) s2

/-- The physical address a fetch at `va` reads; `va` itself where the translation has none. -/
def fetchAddress (va : Word) (s : State) : Word :=
  match translate va .fetch s with
  | .ok pa _ => pa
  | .raise _ _ _ => va
  | .fault _ => va

/-- A 16-bit parcel stored at the physical address a fetch at `va` reads. -/
def placeParcel (va : Word) (v : Word) (s : State) : State :=
  s.withMem (Memory.writeLE s.mem (fetchAddress va s).toNat 2 v)

/-- A 32-bit word stored where the fetch at the pc reads its two parcels (log entry 17). -/
def placeWord (w : Word) (s : State) : State :=
  placeParcel (s.hart.pc + 2) (w >>> 16) (placeParcel s.hart.pc w s)

end Sys2Proof.Machine
end

