-- ==== Sys2Proof/Machine/Interrupt.lean ====
section
/-! DEFINITION. The interrupt check at the start of a step (R634 to R639, R672). -/

namespace Sys2Proof.Machine

/-- The interrupts in the order of their codes (R637). -/
def Interrupt.byCode : List Interrupt := [.ssi, .msi, .sti, .mti, .sei, .mei]

/-- `pending = mip & mie` (R637). -/
def pendingBits (h : Hart) : Word := mipValue h &&& h.csr.mie

/-- The lowest-numbered set bit of `pending`; no bit but those of the six interrupts can be set (R631, R637). -/
def lowestPending (p : Word) : Option Interrupt := Interrupt.byCode.find? fun c => bit p c.code

/-- The global enable of U-mode under `U_IRQ_ENABLE` (R636, log entry 7). -/
def userEnable (cfg : Config) (status : Word) : Bool :=
  match cfg.uIrqEnable with
  | .uie => statusUIE status
  | .always => true
  | .both => if Config.uIrqChoice then true else statusUIE status

/-- The current privilege's global interrupt enable (R635, R636). -/
def globalEnable (cfg : Config) (h : Hart) : Bool :=
  match h.priv with
  | .machine => statusMIE h.csr.mstatus
  | .supervisor => statusSIE h.csr.mstatus
  | .user => userEnable cfg h.csr.mstatus

/-- `InterruptCheck()` (R638): the interrupt to take, if any, and the state after the check. When an enabled interrupt is
pending the WFI flag is cleared, taken or not (R43, R672); it is taken if its target is at least the current privilege, and
if it is not, no other is considered. -/
def interruptCheck (s : State) : Option Interrupt × State :=
  match lowestPending (pendingBits s.hart) with
  | none => (none, s)
  | some c =>
    if globalEnable s.cfg s.hart then
      if (trapTarget (.interrupt c) s.hart).code ≥ s.hart.priv.code then (some c, s.withSleeping false)
      else (none, s.withSleeping false)
    else (none, s)

end Sys2Proof.Machine
end

