-- ==== Sys2Proof/Machine/Cycle.lean ====
section
/-! DEFINITION. The hart's cycle: interrupt check, sleep, fetch, decode, dispatch (R201 to R206, R640). -/

namespace Sys2Proof.Machine

/-- Decode in the configured table and dispatch a fetched word: the handler runs with the decoded operands and the length of the
word (R203); a word without a definition raises IllegalInstruction (R185, R202). -/
def runWord (word : Insn) (len : Nat) (s : State) : Result :=
  match decodeIn s.cfg.isaTable s.hart.priv len word with
  | .ok i => exec i (s.withLen (.ofBytes len))
  | .error .ambiguous => .refused .ambiguousTable
  | .error .noDefinition => illegal s
  | .error .truncated => illegal s

/-- Fetch, decode and execute one instruction (R201). -/
def runInstruction (s : State) : Result := (fetch s).run fun w s' => runWord w.1 w.2 s'

/-- `step()` for the current hart (R201): a taken interrupt ends the step (R639); a sleeping hart does nothing more (R205);
otherwise one instruction. -/
def runHart (s : State) : Result :=
  match interruptCheck s with
  | (some c, s') => takeTrap (.interrupt c) 0 s'.hart.pc s'
  | (none, s') => if s'.hart.sleeping then .next s' else runInstruction s'

end Sys2Proof.Machine
end

