-- ==== Sys2Proof/Machine/Environment.lean ====
section
/-! DEFINITION. What happens between two steps: the environment's scheduled moves, and the TLB entries that may go (R9, R124,
R141, R670, R700, R724). -/

namespace Sys2Proof.Machine

/-- The harts with the one of an id in the place of `h`, and that hart; none if no hart of the list has it. -/
def exchangeHart (hartid : Word) (h : Hart) : List Hart → Option (Hart × List Hart)
  | [] => none
  | k :: rest =>
    if k.hartid = hartid then some (k, h :: rest)
    else
      match exchangeHart hartid h rest with
      | some (found, rest') => some (found, k :: rest')
      | none => none

/-- The hart with an id becomes the next to step: any order of the harts' steps is admitted (R141, log entry 10). -/
def State.select (s : State) (hartid : Word) : State :=
  match exchangeHart hartid s.hart s.others with
  | some (h, others) => (s.withHart h).withOthers others
  | none => s

/-- A later reset of the current hart: the reset state, with its identity and its input lines; memory is not touched (R700,
R707, log entry 18). -/
def State.resetHart (s : State) : State :=
  s.withHart { Hart.reset s.cfg s.hart.hartid with lines := s.hart.lines }

/-- One move of the environment (log entry 4). -/
def applyEvent (s : State) : EnvEvent → State
  | .lines l => s.withLines l
  | .mtime v => s.withMtime v
  | .store pa b => s.withMem (Memory.write s.mem pa.toNat b)
  | .select hartid => s.select hartid
  | .reset => s.resetHart

/-- The moves scheduled before this step, in order; with none scheduled, the inputs keep their values (R724, log
entry 4). -/
def environment (s : State) : State :=
  match s.schedule with
  | [] => s
  | evs :: later => evs.foldl applyEvent (s.withSchedule later)

/-- The entries that stay of a TLB at the step boundary numbered `n`, from position `i` on (R124, log entry 6). -/
def keptEntries (n : Nat) : Nat → List TlbEntry → List TlbEntry
  | _, [] => []
  | i, e :: rest => if Config.dropsTlb n i then keptEntries n (i + 1) rest else e :: keptEntries n (i + 1) rest

/-- Under `TLB_MAY_DROP`, any entries of the TLB may go at a step boundary (R76, R124). -/
def dropTlb (s : State) : State :=
  if s.cfg.tlbMayDrop && !s.hart.tlb.isEmpty then (s.withTlb (keptEntries s.draws 0 s.hart.tlb)).nextDraw else s

end Sys2Proof.Machine
end

