-- ==== Sys2Proof/Machine/Step.lean ====
section
/-! DEFINITION. The step: the environment's moves and the TLB drops of the boundary, then one step of the current hart (R201,
R724). -/

namespace Sys2Proof.Machine

/-- One step of the machine; under `BYTE_ORDER = big` every step is refused (R101). -/
def step (s : State) : Host.Outcome State Fault Refusal :=
  match s.cfg.byteOrder with
  | .big => .refused .bigEndian
  | .little => runHart (dropTlb (environment s))

/-- The state with an instruction word where the next fetch reads it; bits from `nbits` up are 0 (log entry 17). -/
def State.withFetchWord (s : State) (nbits w : Nat) : State := placeWord (BitVec.ofNat 64 (w % 2 ^ nbits)) s

end Sys2Proof.Machine
end

