-- ==== Sys2Proof/Machine/Tables.lean ====
section
/-! DEFINITION. Loading a machine from its parameters and its initial memory, and what is refused then, before any step: an
ill-formed instruction table and a cyclic CSR table (R67, R180, R185, R198, R691, R704, R707). -/

namespace Sys2Proof.Machine

/-- Physical memory from the bytes that the environment places before the first step, in the order it places them (R707). -/
def Memory.ofImage (image : List Host.Cell) : List Host.Cell := image.foldl (fun m c => Memory.write m c.1 c.2) []

/-- Loading a machine: its tables are checked, and it starts in the reset state, with the image in memory. DESIGN CHOICE, unsafe:
`Config.wf` is not asked for, so a machine with a `NUM_HARTS` of 0 is loaded as a machine of one hart and one with an odd
`RESET_PC` starts at the odd pc; R11 and R706 give such parameters no meaning, and R691 lists no refusal of them (log entry 13). -/
def loadMachine (cfg : Config) (image : List Host.Cell) : Result :=
  if Registry.accepts cfg.isaTable then
    if csrAcyclic cfg.csrTable then .next (State.resetWith cfg (Memory.ofImage image)) else .refused .aliasCycle
  else .refused .ambiguousTable

end Sys2Proof.Machine
end

