-- ==== Sys2Proof/Safety.lean ====
section
/-! DEFINITION. The terms claims use: the invariants of the state, what an instruction may change (its frame), what entering a
trap does, and when memory answers. -/

namespace Sys2Proof.Machine

/-! ### Invariants -/

/-- What every hart keeps under the default `CSR_TABLE`: x0 holds nothing (R31), the pc and the saved pcs are even (R41, R57),
and every CSR bit outside its writable mask, but for what trap entry writes, is as reset leaves it (R52 to R59, R62). -/
structure Hart.Inv (h : Hart) : Prop where
  x0 : h.x[0] = 0
  pc : h.pc &&& 1 = 0
  mepc : h.csr.mepc &&& 1 = 0
  sepc : h.csr.sepc &&& 1 = 0
  mstatus : h.csr.mstatus &&& ~~~0x7E79AA = 0xA00000000
  misa : h.csr.misa = 0x800000000014112D
  medeleg : h.csr.medeleg &&& ~~~0xB3FF = 0
  mideleg : h.csr.mideleg &&& ~~~0x222 = 0
  mie : h.csr.mie &&& ~~~0xAAA = 0
  mipLatch : h.csr.mipLatch &&& ~~~0x222 = 0
  fcsr : h.csr.fcsr &&& ~~~0xFF = 0
  mcounteren : h.csr.mcounteren &&& ~~~0xFFFFFFFF = 0
  scounteren : h.csr.scounteren &&& ~~~0xFFFFFFFF = 0
  mhartid : h.csr.mhartid = h.hartid
  ids : h.csr.mvendorid = 0 ∧ h.csr.marchid = 0 ∧ h.csr.mimpid = 0 ∧ h.csr.mconfigptr = 0
  others : h.csr.others = []

/-- What every step keeps under the default `CSR_TABLE` and any other parameters that are acceptable, an instruction table that
the registry accepts among them (R185): memory in canonical form, and every hart's invariant. -/
structure State.Inv (s : State) : Prop where
  cfg : s.cfg.wf = true
  isaTable : Registry.accepts s.cfg.isaTable = true
  csrTable : s.cfg.csrTable = Sys2Proof.csrTable
  mem : Memory.wf s.mem = true
  hart : s.hart.Inv
  others : ∀ h ∈ s.others, h.Inv

/-! ### When memory answers -/

/-- Memory answers an access of `n` bytes at a physical address (R130, R131). -/
def RamAt (s : State) (pa : Word) (n : Nat) : Prop :=
  ∃ r, busRange s.cfg.busMap pa n = some r ∧ r.kind = .ram

/-- A device window answers an access of `n` bytes at a physical address (R109, R667). -/
def DeviceAt (s : State) (pa : Word) (n : Nat) : Prop :=
  ∃ r, busRange s.cfg.busMap pa n = some r ∧ r.kind = .device

/-- Addresses are used unchanged: M-mode or bare mode (R110). -/
def Untranslated (s : State) : Prop := s.hart.priv = .machine ∨ satpMode s.hart.csr.satp = 0

/-- Memory answers an untranslated access. -/
def Answered (s : State) (a : Word) (n : Nat) : Prop := Untranslated s ∧ RamAt s a n

/-! ### Frames -/

/-- From `s` to `t` nothing changes but GPR `rd` and the pc. -/
def OnlyX (rd : BitVec 5) (s t : State) : Prop :=
  (∀ r, r ≠ rd → t.readX r = s.readX r) ∧ (∀ r, t.readF r = s.readF r) ∧ (∀ a, t.readByte a = s.readByte a) ∧
  t = { s with hart := { s.hart with x := t.hart.x, pc := t.hart.pc } }

/-- From `s` to `t` nothing changes but FPR `rd` and the pc. -/
def OnlyF (rd : BitVec 5) (s t : State) : Prop :=
  (∀ r, t.readX r = s.readX r) ∧ (∀ r, r ≠ rd → t.readF r = s.readF r) ∧ (∀ a, t.readByte a = s.readByte a) ∧
  t = { s with hart := { s.hart with f := t.hart.f, pc := t.hart.pc } }

/-- From `s` to `t` nothing changes but the pc. -/
def OnlyPc (s t : State) : Prop :=
  (∀ r, t.readX r = s.readX r) ∧ (∀ r, t.readF r = s.readF r) ∧ (∀ a, t.readByte a = s.readByte a) ∧
  t = { s with hart := { s.hart with pc := t.hart.pc } }

/-- The `n` bytes from address `a` up hold the low bytes of `v`, least significant first (R101). -/
def HoldsBytes (s : State) (a n : Nat) (v : Word) : Prop :=
  ∀ k, k < n → s.readByte (a + k) = (v >>> (8 * k)).setWidth 8

/-- Every byte outside the `n` bytes from `a` up reads as before. -/
def OtherBytesKept (a n : Nat) (s t : State) : Prop :=
  ∀ b, b < a ∨ a + n ≤ b → t.readByte b = s.readByte b

/-! ### What an instruction does, as one proposition each -/

/-- The instruction completes, writes `v` to `rd` (nothing, if `rd` is x0) and goes on to the next instruction. -/
def WritesX (i : Instr) (len : Nat) (rd : BitVec 5) (v : Word) (s : State) : Prop :=
  ∃ t, exec i s = .next t ∧ t.readX rd = (if rd = 0 then 0 else v) ∧ t.hart.pc = s.hart.pc + BitVec.ofNat 64 len ∧
    OnlyX rd s t

/-- The instruction completes, writes `v` to FPR `rd` and goes on to the next instruction. -/
def WritesF (i : Instr) (len : Nat) (rd : BitVec 5) (v : Word) (s : State) : Prop :=
  ∃ t, exec i s = .next t ∧ t.readF rd = v ∧ t.hart.pc = s.hart.pc + BitVec.ofNat 64 len ∧ OnlyF rd s t

/-- The instruction completes, writes `v` to `rd` and goes on at `target`. -/
def JumpsTo (i : Instr) (rd : BitVec 5) (v target : Word) (s : State) : Prop :=
  ∃ t, exec i s = .next t ∧ t.readX rd = (if rd = 0 then 0 else v) ∧ t.hart.pc = target ∧ OnlyX rd s t

/-- The instruction completes, changes nothing but the pc, and goes on at `target`. -/
def GoesTo (i : Instr) (target : Word) (s : State) : Prop :=
  ∃ t, exec i s = .next t ∧ t.hart.pc = target ∧ OnlyPc s t

/-- The instruction completes, stores the low `n` bytes of `v` at physical address `a` and nothing else, and goes on to the
next instruction. -/
def StoresTo (i : Instr) (len n : Nat) (a v : Word) (s : State) : Prop :=
  ∃ t, exec i s = .next t ∧ HoldsBytes t a.toNat n v ∧ OtherBytesKept a.toNat n s t ∧
    t.hart.pc = s.hart.pc + BitVec.ofNat 64 len ∧
    t = { s with mem := t.mem, hart := { s.hart with pc := t.hart.pc } }

/-- The instruction completes, stores the low `n` bytes of `v` at physical address `a`, writes `old` to `rd`, changes nothing
else, and goes on to the next instruction, at the pc plus the length of this one (R203). -/
def Exchanges (i : Instr) (n : Nat) (a v : Word) (rd : BitVec 5) (old : Word) (s : State) : Prop :=
  ∃ t, exec i s = .next t ∧ HoldsBytes t a.toNat n v ∧ OtherBytesKept a.toNat n s t ∧
    t.readX rd = (if rd = 0 then 0 else old) ∧ (∀ r, r ≠ rd → t.readX r = s.readX r) ∧
    t.hart.pc = s.hart.pc + BitVec.ofNat 64 s.len.bytes ∧
    t = { s with mem := t.mem, hart := { s.hart with x := t.hart.x, pc := t.hart.pc } }

/-- The instruction translates the address `ea` of its `n` bytes once, as an access of this kind: a fault of the translation is
the page fault of the kind, with `ea` as the trap value (R126, R128); an access that crosses a page under translation is the
model fault MisalignedPageCross (R105); and where memory answers at the translated address `pa`, the instruction completes, in
the state that `after pa` makes of the one that the translation leaves (R104). -/
def AccessesThrough (kind : Access) (i : Instr) (ea : Word) (n : Nat) (after : Word → State → State) (s : State) : Prop :=
  (∀ e v s1, translate ea kind s = .raise e v s1 →
    e = kind.pageFault ∧ v = ea ∧ exec i s = raiseExc kind.pageFault ea s1) ∧
  (∀ pa s1, translate ea kind s = .ok pa s1 → ¬Untranslated s → ea.toNat % 4096 + n > 4096 →
    exec i s = .fault .misalignedPageCross) ∧
  ∀ pa s1, translate ea kind s = .ok pa s1 → (Untranslated s ∨ ea.toNat % 4096 + n ≤ 4096) → RamAt s1 pa n →
    exec i s = .next (after pa s1)

/-- The access instruction ends in the model fault BusFault where the bus does not answer its access of this kind: in its own
translation of the effective address `ea` (a page-table read or an A/D write-back), or at the address `a` of its `n` bytes, which
the translation gives for an access that crosses no page under it (R104, R131). -/
def BusFaults (kind : Access) (i : Instr) (ea : Word) (n : Nat) (a : Word) (s : State) : Prop :=
  (translate ea kind s = .fault .busFault → exec i s = .fault .busFault) ∧
  ∀ s1, translate ea kind s = .ok a s1 → (Untranslated s ∨ ea.toNat % 4096 + n ≤ 4096) → exec i s = .fault .busFault

/-- The CSR instruction completes: `rd` takes `old`, the CSR file becomes `csr`, nothing else changes (but the index of the next
free value, where one was taken), and it goes on to the next instruction. -/
def AccessesCsr (i : Instr) (rd : BitVec 5) (old : Word) (csr : CsrFile) (s : State) : Prop :=
  ∃ t, exec i s = .next t ∧ t.readX rd = (if rd = 0 then 0 else old) ∧ (∀ r, r ≠ rd → t.readX r = s.readX r) ∧
    t.hart.csr = csr ∧ t.hart.pc = s.hart.pc + 4 ∧ (∀ a, t.readByte a = s.readByte a) ∧
    ∃ d, t = { s with draws := d, hart := { s.hart with x := t.hart.x, pc := t.hart.pc, csr := t.hart.csr } }

/-- No two segments of the operand read one bit of the word. -/
def SegmentsApart (o : Operand) : Prop := o.segments.Pairwise fun a b => a.hi < b.lo ∨ b.hi < a.lo

/-- Every bit of a word of this definition is fixed or read by an operand. -/
def NoBitFree (d : Definition) : Prop :=
  d.operands.foldl (fun m o => m ||| o.span) d.mask = ones (8 * d.length)

/-! ### Entering a trap (R642 to R646) -/

/-- A trap's write of a saved pc, the register at `a`, under its mask in the table; in the default table the mask is all but bit
0 (R57, R642). That it is so too in a table without a row at `a` is the model's choice (log entry 12). -/
def SavesPc (tbl : List CsrRow) (a : BitVec 12) (old epc new : Word) : Prop :=
  new = (old &&& ~~~savedPcMask tbl a) ||| (epc &&& savedPcMask tbl a) ∧
  (tbl = csrTable → new = (old &&& 1) ||| (epc &&& ~~~1))

/-- From `s` to `t` a trap to M is entered: the saved pc, cause, trap value and status, the privilege and the pc are as R642,
R643, R645 and R646 say, and nothing else changes (but the index of the next free value, where one was taken). The mask of the
saved pc in a table without its row is the model's choice (log entry 12). -/
def EntersM (interrupt : Bool) (code : Nat) (tval epc : Word) (s t : State) : Prop :=
  SavesPc s.cfg.csrTable 0x341 s.hart.csr.mepc epc t.hart.csr.mepc ∧
  t.hart.csr.mcause = (if interrupt then 1 <<< 63 else 0) ||| BitVec.ofNat 64 code ∧
  t.hart.csr.mtval = tval ∧
  statusMPIE t.hart.csr.mstatus = statusMIE s.hart.csr.mstatus ∧
  statusMIE t.hart.csr.mstatus = false ∧
  statusMPP t.hart.csr.mstatus = s.hart.priv.code ∧
  (∀ i, i ≠ 3 → i ≠ 7 → i ≠ 11 → i ≠ 12 → bit t.hart.csr.mstatus i = bit s.hart.csr.mstatus i) ∧
  t.hart.priv = .machine ∧
  t.hart.pc = (if interrupt ∧ s.hart.csr.mtvec &&& 3 = 1 then (s.hart.csr.mtvec &&& ~~~3) + BitVec.ofNat 64 (4 * code)
    else s.hart.csr.mtvec &&& ~~~3) ∧
  ∃ d, t = { s with
    draws := d
    hart := { s.hart with
      pc := t.hart.pc
      priv := t.hart.priv
      csr := { s.hart.csr with
        mepc := t.hart.csr.mepc
        mcause := t.hart.csr.mcause
        mtval := t.hart.csr.mtval
        mstatus := t.hart.csr.mstatus } } }

/-- From `s` to `t` a trap to S is entered: as R642, R644, R645 and R646 say. The mask of the saved pc in a table without its
row is the model's choice (log entry 12). -/
def EntersS (interrupt : Bool) (code : Nat) (tval epc : Word) (s t : State) : Prop :=
  SavesPc s.cfg.csrTable 0x141 s.hart.csr.sepc epc t.hart.csr.sepc ∧
  t.hart.csr.scause = (if interrupt then 1 <<< 63 else 0) ||| BitVec.ofNat 64 code ∧
  t.hart.csr.stval = tval ∧
  statusSPIE t.hart.csr.mstatus = statusSIE s.hart.csr.mstatus ∧
  statusSIE t.hart.csr.mstatus = false ∧
  statusSPP t.hart.csr.mstatus = decide (s.hart.priv = .supervisor) ∧
  (∀ i, i ≠ 1 → i ≠ 5 → i ≠ 8 → bit t.hart.csr.mstatus i = bit s.hart.csr.mstatus i) ∧
  t.hart.priv = .supervisor ∧
  t.hart.pc = (if interrupt ∧ s.hart.csr.stvec &&& 3 = 1 then (s.hart.csr.stvec &&& ~~~3) + BitVec.ofNat 64 (4 * code)
    else s.hart.csr.stvec &&& ~~~3) ∧
  ∃ d, t = { s with
    draws := d
    hart := { s.hart with
      pc := t.hart.pc
      priv := t.hart.priv
      csr := { s.hart.csr with
        sepc := t.hart.csr.sepc
        scause := t.hart.csr.scause
        stval := t.hart.csr.stval
        mstatus := t.hart.csr.mstatus } } }

/-- An exception of this code in this hart is delegated to S: from U or S, with its `medeleg` bit set (R641). -/
def Delegated (code : Nat) (h : Hart) : Prop := h.priv ≠ .machine ∧ bit h.csr.medeleg code = true

/-- The vector an exception of this code uses has a nonzero BASE (R647). -/
def HandlerInstalled (code : Nat) (h : Hart) : Prop :=
  (Delegated code h → h.csr.stvec &&& ~~~3 ≠ 0) ∧ (¬Delegated code h → h.csr.mtvec &&& ~~~3 ≠ 0)

/-- From `s` to `t` an exception is taken by its target, with the address of the instruction saved (R641, R642). -/
def TakesException (code : Nat) (tval : Word) (s t : State) : Prop :=
  (Delegated code s.hart → EntersS false code tval s.hart.pc s t) ∧
  (¬Delegated code s.hart → EntersM false code tval s.hart.pc s t)

/-- The instruction answers a next state in which the exception is taken. -/
def Raises (i : Instr) (code : Nat) (tval : Word) (s : State) : Prop :=
  ∃ t, exec i s = .next t ∧ TakesException code tval s t

/-- The instruction answers a next state in which IllegalInstruction is taken, with some trap value (R202, R633). -/
def RaisesIllegal (i : Instr) (s : State) : Prop := ∃ tval, Raises i 2 tval s

end Sys2Proof.Machine
end

