-- ==== Sys2Proof/Certificates/Slice0/Obligations.lean ====
section
/-! DEFINITION. The statements for the provers, each from the spec's rules (the docstring names them). -/

open Sys2Proof Sys2Proof.Machine

/-! ### The registry -/

/-- Decoding the encoding of a well-formed instruction gives it back, as a word and as bytes in memory, in every mode
its definition allows (R182 to R187). -/
def Obligations.DecodeEncodeRoundTrip : Prop :=
  ∀ (i : Instr) (mode : Priv), i.wellFormed = true → (row i.op).allows mode = true →
    decodeWord mode i.length (encode i) = .ok i ∧
    ∀ rest, decodeBytes mode (encodeBytes i ++ rest) = .ok (i, rest)

/-- R186: in every operand of a well-formed definition, a representable value written into the segments is read back, and the
other bits of the word are left alone. The segments are taken to lie apart in the word, as those of every operand of the default
table do: what is written into two segments that share a bit is not two values, and that a table with such an operand is
accepted at all is the model's choice (log entry 23). -/
def Obligations.OperandRoundTrip : Prop :=
  (∀ (d : Definition) (o : Operand), d.wellFormed = true → o ∈ d.operands → SegmentsApart o →
    ∀ value word : Insn, value &&& ~~~o.cover = 0 →
      o.decode (o.encode value word) = value ∧ (o.encode value word) &&& ~~~o.span = word &&& ~~~o.span) ∧
  ∀ (op : Op) (o : Operand), o ∈ (row op).operands → (row op).wellFormed = true ∧ SegmentsApart o

/-- What the decoder answers is well formed, allowed in the mode, and of the length asked for, which is the one the
lowest two bits announce; the word has the definition's fixed bits; and where the definition leaves no bit free,
encoding the decoded instruction gives the word back (R182 to R184, R186, R187, R196). -/
def Obligations.DecodedIsWellFormed : Prop :=
  (∀ (mode : Priv) (len : Nat) (w : Insn) (i : Instr), decodeWord mode len w = .ok i →
     i.wellFormed = true ∧ (row i.op).allows mode = true ∧ i.length = len ∧ len = wordLength w ∧
     w &&& (row i.op).mask = (row i.op).bits) ∧
  ∀ (mode : Priv) (len : Nat) (w : Insn) (i : Instr), decodeWord mode len w = .ok i → NoBitFree (row i.op) →
    w >>> (8 * len) = 0 → encode i = w

/-- R185: no two definitions of the default table match one mode and word; a machine whose table has two definitions that
match one is refused when it is loaded; a word no definition of the machine's table matches raises IllegalInstruction. -/
def Obligations.DecodingIsUnique : Prop :=
  (∀ (mode : Priv) (len : Nat) (w : Insn), (table.filter fun d => d.matchesWord mode len w).length ≤ 1) ∧
  (∀ (cfg : Config) (image : List Host.Cell) (mode : Priv) (len : Nat) (w : Insn),
    2 ≤ (cfg.isaTable.filter fun d => d.matchesWord mode len w).length →
    loadMachine cfg image = .refused .ambiguousTable) ∧
  ∀ (s : State) (len : Nat) (w : Insn), (∀ d, d ∈ s.cfg.isaTable → d.matchesWord s.hart.priv len w = false) →
    runWord w len s = illegal s

/-- The opcodes without a definition (R194, R198) and the reserved compressed encodings (R196) decode to nothing in
every mode, and a word that does raises IllegalInstruction (R202). -/
def Obligations.ReservedWordsHaveNoDefinition : Prop :=
  (∀ (mode : Priv) (w : Insn),
    (w &&& 0x7F = 0x0B ∨ w &&& 0x7F = 0x1F ∨ w &&& 0x7F = 0x2B ∨ w &&& 0x7F = 0x3F ∨ w &&& 0x7F = 0x5B ∨
      w &&& 0x7F = 0x5F ∨ w &&& 0x7F = 0x77 ∨ w &&& 0x7F = 0x7B ∨ w &&& 0x7F = 0x7F) →
    decodeWord mode 4 w = .error .noDefinition) ∧
  (∀ (mode : Priv) (w : Insn),
    (w &&& 0xFFFFFFE3 = 0 ∨ w &&& 0xFFFFEF83 = 0x2001 ∨ w &&& 0xFFFFF07F = 0x6001 ∨ w &&& 0xFFFFEF83 = 0x4002 ∨
      w &&& 0xFFFFEF83 = 0x6002 ∨ w = 0x8002 ∨ w &&& 0xFFFFE003 = 0x8000 ∨ w &&& 0xFFFFFC63 = 0x9C41 ∨
      w &&& 0xFFFFFC63 = 0x9C61) →
    decodeWord mode 2 w = .error .noDefinition) ∧
  ∀ (s : State) (len : Nat) (w : Insn), decodeIn s.cfg.isaTable s.hart.priv len w = .error .noDefinition →
    runWord w len s = illegal s

/-- R199: only `mret` carries a restriction; below M-mode its word decodes to nothing and raises IllegalInstruction.
-/
def Obligations.OnlyMretIsRestricted : Prop :=
  (∀ op : Op, (row op).restriction = if op = .mret then 3 else 0) ∧
  decodeWord .machine 4 0x30200073 = .ok .mret ∧
  decodeWord .user 4 0x30200073 = .error .noDefinition ∧
  decodeWord .supervisor 4 0x30200073 = .error .noDefinition ∧
  (∀ s : State, s.cfg.isaTable = table → s.hart.priv ≠ .machine → runWord 0x30200073 4 s = illegal s) ∧
  ∀ s : State, s.hart.priv = .user →
    exec .sret s = illegal s ∧ ∀ rs1 rs2, exec (.sfenceVma rs1 rs2) s = illegal s

/-- Words written out from the spec's encodings decode to the instructions they stand for, at least one for each family of
the opcode table. -/
def Obligations.DecodedSpecWords : Prop :=
  decodeTableWord 32 0x00C58533 = some (.add 10 11 12) ∧
  decodeTableWord 32 0x2D1DE2EF = some (.jal 5 0xDEAD0) ∧
  decodeTableWord 32 0x0005B503 = some (.ld 10 11 0) ∧
  decodeTableWord 32 0x027302B3 = some (.mul 5 6 7) ∧
  decodeTableWord 32 0x00C5A52F = some (.amoaddW 10 11 12 0 0) ∧
  decodeTableWord 32 0x340312F3 = some (.csrrw 5 6 0x340) ∧
  decodeTableWord 32 0x10200073 = some .sret ∧
  decodeTableWord 16 0x8D0D = some (.cSub 2 3) ∧
  decodeTableWord 32 0x0005A507 = some (.flw 10 11 0) ∧
  decodeTableWord 32 0x6005C573 = some (.hlvB 10 11)

/-- What loading a machine checks (R67, R180, R185, R198): a table with a definition that is malformed in its length or its
pattern, or that names no operand its handler reads, or with two definitions that match one mode and word, is refused as
AmbiguousTable; else a CSR table with a cyclic chain of views is refused as AliasCycle, and so is one with a view of an
undefined address. Nothing else is refused: definitions that are well formed and have handlers, no two of which match one mode
and word (R185), beside a CSR table whose chains of views end, are loaded, whatever the other parameters: that parameters
outside their range, a `NUM_HARTS` of 0 or an odd `RESET_PC`, are loaded too is the model's choice (log entry 13, unsafe). What
else is well formed (log entry 23) or has a handler (log entry 20), which lengths and patterns are malformed (log entry 23),
that a missing operand leaves a definition without a handler (log entry 20), and the view of an undefined address (log entry 22)
are the model's choices. The default tables are loaded. What is loaded is the reset state, with the initial memory as its image
gives it (R700, R707); that a byte no image places reads as 0, `Memory.unlisted`, is the model's choice (log entry 2, unsafe).
-/
def Obligations.LoadChecksTheTables : Prop :=
  (∀ image : List Host.Cell,
    loadMachine Config.default image = .next (State.resetWith Config.default (Memory.ofImage image))) ∧
  (∀ (cfg : Config) (image : List Host.Cell) (d : Definition), d ∈ cfg.isaTable →
    (d.length ∉ [2, 4] ∨ d.bits &&& ~~~d.mask ≠ 0 ∨ d.mask &&& 3 ≠ 3 ∨
      ∃ o, o ∈ (row d.op).operands ∧ ∀ o', o' ∈ d.operands → o'.label ≠ o.label) →
    loadMachine cfg image = .refused .ambiguousTable) ∧
  (∀ (cfg : Config) (image : List Host.Cell) (mode : Priv) (len : Nat) (w : Insn),
    2 ≤ (cfg.isaTable.filter fun d => d.matchesWord mode len w).length →
    loadMachine cfg image = .refused .ambiguousTable) ∧
  (∀ (cfg : Config) (image : List Host.Cell), Registry.accepts cfg.isaTable = true →
    (∀ onCycle : BitVec 12 → Prop, (∃ a, onCycle a) →
      (∀ a, onCycle a → ∃ r base, csrFind cfg.csrTable a = some r ∧ r.kind = .view base ∧ onCycle base) →
      loadMachine cfg image = .refused .aliasCycle) ∧
    ∀ a r base, csrFind cfg.csrTable a = some r → r.kind = .view base → csrFind cfg.csrTable base = none →
      loadMachine cfg image = .refused .aliasCycle) ∧
  (∀ (cfg : Config) (image : List Host.Cell), csrAcyclic cfg.csrTable = true →
    (∀ d, d ∈ cfg.isaTable → d.wellFormed = true ∧ d.handled = true) →
    (∀ (mode : Priv) (len : Nat) (w : Insn), (cfg.isaTable.filter fun d => d.matchesWord mode len w).length ≤ 1) →
    loadMachine cfg image = .next (State.resetWith cfg (Memory.ofImage image))) ∧
  ∀ (cfg : Config) (image : List Host.Cell) (s : State), loadMachine cfg image = .next s →
    s = State.resetWith cfg s.mem ∧ Memory.wf s.mem = true ∧
    ∀ a, s.readByte a = ((image.reverse.find? fun c => c.1 == a).map Prod.snd).getD Memory.unlisted

/-! ### The step -/

/-- With no interrupt to take and the hart awake, a step is the execution of the instruction the fetched word decodes to, with
the length of the word handed to it in the field `len` (R201, R203, log entry 26); the environment's moves and the TLB drops of
the boundary come before. The form of those moves is the model's (log entries 4 and 6). -/
def Obligations.StepRunsTheDecodedInstruction : Prop :=
  ∀ (s s1 s2 : State) (w : Insn) (len : Nat) (i : Instr), s.cfg.byteOrder = .little →
    interruptCheck (dropTlb (environment s)) = (none, s1) → s1.hart.sleeping = false →
    fetch s1 = .ok (w, len) s2 → decodeIn s2.cfg.isaTable s2.hart.priv len w = .ok i →
    ∃ l : InsnLength, l.bytes = len ∧ step s = exec i (s2.withLen l)

/-- Under the default instruction table, a well-formed instruction whose bytes lie where an untranslated fetch at the pc
reads them is what the step executes, in the state itself with the instruction's length handed to it (R102, R200, R201, R203, log
entry 26). -/
def Obligations.StepRunsInstructionInMemory : Prop :=
  ∀ (s : State) (i : Instr), s.cfg.byteOrder = .little → s.cfg.isaTable = table → s.schedule = [] →
    (s.cfg.tlbMayDrop = false ∨ s.hart.tlb = []) → lowestPending (pendingBits s.hart) = none →
    s.hart.sleeping = false → i.wellFormed = true → (row i.op).allows s.hart.priv = true → Untranslated s →
    RamAt s s.hart.pc 2 → (i.length = 4 → RamAt s (s.hart.pc + 2) 2) →
    (∀ k, k < 2 → s.readByte (s.hart.pc.toNat + k) = (encode i >>> (8 * k)).setWidth 8) →
    (i.length = 4 → ∀ k, k < 2 →
      s.readByte ((s.hart.pc + 2).toNat + k) = (encode i >>> (16 + 8 * k)).setWidth 8) →
    ∃ l : InsnLength, l.bytes = i.length ∧ step s = exec i (s.withLen l)

/-- R205, R672: a sleeping hart only runs the interrupt check; with interrupts enabled and one pending it wakes, and
either takes it or runs the next instruction in the same step. -/
def Obligations.SleepingHartOnlyChecksInterrupts : Prop :=
  ∀ s : State, s.hart.sleeping = true →
    (lowestPending (pendingBits s.hart) = none ∨ globalEnable s.cfg s.hart = false → runHart s = .next s) ∧
    ∀ c, lowestPending (pendingBits s.hart) = some c → globalEnable s.cfg s.hart = true →
      ((trapTarget (.interrupt c) s.hart).code ≥ s.hart.priv.code →
        runHart s = takeTrap (.interrupt c) 0 s.hart.pc (s.withSleeping false)) ∧
      ((trapTarget (.interrupt c) s.hart).code < s.hart.priv.code →
        runHart s = runInstruction (s.withSleeping false))

/-- R635 to R637: `pending` is `mip & mie`, and the interrupt selected is its lowest-numbered set bit; the global
enable is that of the current mode, and in U-mode, under the default, either outcome is admitted. The U-mode choice is
a value nothing constrains (log entry 7). -/
def Obligations.InterruptSelection : Prop :=
  (∀ h : Hart, h.Inv →
     (lowestPending (pendingBits h) = none ↔ mipValue h &&& h.csr.mie = 0) ∧
     ∀ c, lowestPending (pendingBits h) = some c →
       bit (mipValue h &&& h.csr.mie) c.code = true ∧ ∀ i, i < c.code → bit (mipValue h &&& h.csr.mie) i = false) ∧
  ∀ (cfg : Config) (h : Hart),
    (h.priv = .machine → globalEnable cfg h = bit h.csr.mstatus 3) ∧
    (h.priv = .supervisor → globalEnable cfg h = bit h.csr.mstatus 1) ∧
    (h.priv = .user → cfg.uIrqEnable = .uie → globalEnable cfg h = bit h.csr.mstatus 0) ∧
    (h.priv = .user → cfg.uIrqEnable = .always → globalEnable cfg h = true) ∧
    (h.priv = .user → cfg.uIrqEnable = .both → globalEnable cfg h = true ∨ globalEnable cfg h = bit h.csr.mstatus 0)

/-- R633, R638, R639, R642 to R646: an enabled pending interrupt whose target is at least the current privilege is
taken at the start of the step, by S if its `mideleg` bit is set and by M otherwise, with the pc saved and trap value
0; otherwise the step goes on to fetch. -/
def Obligations.InterruptIsTaken : Prop :=
  ∀ (s : State) (c : Interrupt), lowestPending (pendingBits s.hart) = some c → globalEnable s.cfg s.hart = true →
    (bit s.hart.csr.mideleg c.code = false → s.hart.csr.mtvec &&& ~~~3 ≠ 0 →
      ∃ t, runHart s = .next t ∧ EntersM true c.code 0 s.hart.pc (s.withSleeping false) t) ∧
    (bit s.hart.csr.mideleg c.code = true → s.hart.priv ≠ .machine → s.hart.csr.stvec &&& ~~~3 ≠ 0 →
      ∃ t, runHart s = .next t ∧ EntersS true c.code 0 s.hart.pc (s.withSleeping false) t) ∧
    (bit s.hart.csr.mideleg c.code = true → s.hart.priv = .machine →
      runHart s = runInstruction (s.withSleeping false))

/-! ### Traps -/

/-- R642 to R647: entering a trap saves the pc, the cause and the trap value, updates the status, raises the privilege
to the target and goes to the handler; nothing else changes. With a zero vector base every trap is the model fault
NoTrapHandler instead. Under a CSR table without a row for the saved pc, the mask it is written under is the model's choice
(log entry 12). -/
def Obligations.TrapEntryState : Prop :=
  ∀ (ev : TrapEvent) (tval epc : Word) (s : State),
    (trapTarget ev s.hart = .machine →
      (s.hart.csr.mtvec &&& ~~~3 ≠ 0 →
        ∃ t, takeTrap ev tval epc s = .next t ∧ EntersM ev.isInterrupt ev.code tval epc s t) ∧
      (s.hart.csr.mtvec &&& ~~~3 = 0 → takeTrap ev tval epc s = .fault .noTrapHandler)) ∧
    (trapTarget ev s.hart = .supervisor →
      (s.hart.csr.stvec &&& ~~~3 ≠ 0 →
        ∃ t, takeTrap ev tval epc s = .next t ∧ EntersS ev.isInterrupt ev.code tval epc s t) ∧
      (s.hart.csr.stvec &&& ~~~3 = 0 → takeTrap ev tval epc s = .fault .noTrapHandler))

/-- R641, R645: the target of a trap, and that a trap never lowers the privilege. -/
def Obligations.TrapTargetNeverLowersPrivilege : Prop :=
  (∀ (e : Exc) (h : Hart), trapTarget (.exception e) h =
    if h.priv.code ≤ 1 ∧ bit h.csr.medeleg e.code = true then .supervisor else .machine) ∧
  (∀ (c : Interrupt) (h : Hart), trapTarget (.interrupt c) h =
    if bit h.csr.mideleg c.code = true then .supervisor else .machine) ∧
  (∀ (e : Exc) (tval : Word) (s t : State), raiseExc e tval s = .next t →
    t.hart.priv = trapTarget (.exception e) s.hart ∧ s.hart.priv.code ≤ t.hart.priv.code) ∧
  (∀ (s s1 t : State) (c : Interrupt), interruptCheck s = (some c, s1) →
    takeTrap (.interrupt c) 0 s1.hart.pc s1 = .next t →
    t.hart.priv = trapTarget (.interrupt c) s.hart ∧ s.hart.priv.code ≤ t.hart.priv.code) ∧
  (csrFind csrTable 0x302).map (fun r => bit r.mask 11) = some false

/-- R425, R426: `mret` in M-mode restores the privilege and the enable, resets the previous fields and jumps to `mepc`; with
MPP = 2 it is the model fault IllegalPrivilege. `sret` in S-mode or M-mode restores the privilege and the enable, resets the
previous fields and jumps to `sepc`; in U-mode it raises IllegalInstruction. -/
def Obligations.ReturnsFromTraps : Prop :=
  (∀ s : State, s.hart.priv = .machine →
    (statusMPP s.hart.csr.mstatus = 2 → exec .mret s = .fault .illegalPrivilege) ∧
    (statusMPP s.hart.csr.mstatus ≠ 2 →
      ∃ t, exec .mret s = .next t ∧ t.hart.priv.code = statusMPP s.hart.csr.mstatus ∧ t.hart.pc = s.hart.csr.mepc ∧
        statusMIE t.hart.csr.mstatus = statusMPIE s.hart.csr.mstatus ∧ statusMPIE t.hart.csr.mstatus = true ∧
        statusMPP t.hart.csr.mstatus = 0 ∧
        (∀ i, i ≠ 3 → i ≠ 7 → i ≠ 11 → i ≠ 12 → bit t.hart.csr.mstatus i = bit s.hart.csr.mstatus i) ∧
        t = { s with hart := { s.hart with
          pc := t.hart.pc, priv := t.hart.priv, csr := { s.hart.csr with mstatus := t.hart.csr.mstatus } } })) ∧
  ∀ s : State,
    (s.hart.priv = .user → exec .sret s = illegal s) ∧
    (s.hart.priv ≠ .user →
      ∃ t, exec .sret s = .next t ∧
        t.hart.priv = (if statusSPP s.hart.csr.mstatus then .supervisor else .user) ∧ t.hart.pc = s.hart.csr.sepc ∧
        statusSIE t.hart.csr.mstatus = statusSPIE s.hart.csr.mstatus ∧ statusSPIE t.hart.csr.mstatus = true ∧
        statusSPP t.hart.csr.mstatus = false ∧
        (∀ i, i ≠ 1 → i ≠ 5 → i ≠ 8 → bit t.hart.csr.mstatus i = bit s.hart.csr.mstatus i) ∧
        t = { s with hart := { s.hart with
          pc := t.hart.pc, priv := t.hart.priv, csr := { s.hart.csr with mstatus := t.hart.csr.mstatus } } })

/-- R423, R424, R471: `ecall` raises the environment call of the current mode, cause 8 + priv, with trap value 0;
`ebreak` and `c.ebreak` raise Breakpoint with their own address, and are refused as a semihosting call while
semihosting is enabled. That refusal is the model's reading of R424 (log entry 16). -/
def Obligations.EcallAndEbreak : Prop :=
  (∀ s : State, HandlerInstalled (8 + s.hart.priv.code) s.hart → Raises .ecall (8 + s.hart.priv.code) 0 s) ∧
  ∀ s : State,
    (s.hart.semihosting = true → exec .ebreak s = .refused .semihostingCall ∧
      exec .cEbreak s = .refused .semihostingCall) ∧
    (s.hart.semihosting = false → HandlerInstalled 3 s.hart →
      Raises .ebreak 3 s.hart.pc s ∧ Raises .cEbreak 3 s.hart.pc s)

/-- R421, R422, R427: the fences have no effect, whatever their fields; `wfi` sets the WFI flag and the pc advances
first. -/
def Obligations.FencesAndWfi : Prop :=
  ∀ s : State,
    (∀ fm pred succ rs1 rd, GoesTo (.fence fm pred succ rs1 rd) (s.hart.pc + 4) s) ∧
    (∀ imm rs1 rd, GoesTo (.fenceI imm rs1 rd) (s.hart.pc + 4) s) ∧
    exec .wfi s = .next { s with hart := { s.hart with sleeping := true, pc := s.hart.pc + 4 } }

/-- R429, R269, R465: `slli x0, x0, 0x1F` toggles the semihosting flag and changes nothing else but the pc; every
other `slli` only shifts, and so does `c.slli`, even with x0 and 0x1F. -/
def Obligations.SemihostingToggle : Prop :=
  ∀ s : State,
    exec (.slli 0 0 0x1F) s =
      .next { s with hart := { s.hart with semihosting := !s.hart.semihosting, pc := s.hart.pc + 4 } } ∧
    (∀ rd rs1 shamt, ¬(rd = 0 ∧ rs1 = 0 ∧ shamt = 0x1F) →
      WritesX (.slli rd rs1 shamt) 4 rd (BitVec.ofNat 64 ((s.readX rs1).toNat * 2 ^ shamt.toNat)) s) ∧
    ∀ rd shamt, WritesX (.cSlli rd shamt) 2 rd (BitVec.ofNat 64 ((s.readX rd).toNat * 2 ^ shamt.toNat)) s

/-- R428, R123: `sfence.vma` with both values 0 empties the TLB; otherwise it removes exactly the entries whose address space
and page match; nothing else changes but the pc, which advances by the instruction's length (R203). In U-mode it raises
IllegalInstruction. The form of the TLB is the model's (log entry 8), and that the end of a page is computed exactly, so that
the page at the top of the address space is flushed by an address in it, is the model's choice (log entry 25). -/
def Obligations.SfenceVmaFlushes : Prop :=
  ∀ (s : State) (rs1 rs2 : BitVec 5),
    (s.hart.priv = .user → exec (.sfenceVma rs1 rs2) s = illegal s) ∧
    (s.hart.priv ≠ .user →
      ∃ t, exec (.sfenceVma rs1 rs2) s = .next t ∧ t.hart.pc = s.hart.pc + BitVec.ofNat 64 s.len.bytes ∧
        (∀ e, e ∈ t.hart.tlb ↔ e ∈ s.hart.tlb ∧
          ¬(s.readX rs1 = 0 ∧ (s.readX rs2).toNat % 65536 = 0) ∧
          ¬(((s.readX rs2).toNat % 65536 = 0 ∨ e.asidKey = (s.readX rs2).toNat % 65536) ∧
            (s.readX rs1 = 0 ∨
              (e.vbase.toNat ≤ (s.readX rs1).toNat ∧ (s.readX rs1).toNat < e.vbase.toNat + e.size)))) ∧
        t.hart.tlb.Sublist s.hart.tlb ∧
        t = { s with hart := { s.hart with tlb := t.hart.tlb, pc := t.hart.pc } })

/-! ### The CSR file -/

/-- R60, R61: an undefined address, one above the current privilege, and a write of a read-only encoding or of a
getter-only register raise IllegalInstruction, in each of the six instructions, under every table without a cyclic chain of
views; and which addresses the default table defines (R52). -/
def Obligations.CsrChecksRefuse : Prop :=
  (∀ a : BitVec 12, (csrFind csrTable a).isSome = true ↔
    a ∈ ([0x001, 0x002, 0x003, 0xC00, 0xC01, 0xC02, 0x100, 0x104, 0x105, 0x106, 0x140, 0x141, 0x142, 0x143, 0x144, 0x180,
      0x300, 0x301, 0x302, 0x303, 0x304, 0x305, 0x306, 0x340, 0x341, 0x342, 0x343, 0x344, 0xF11, 0xF12, 0xF13, 0xF14,
      0xF15] : List (BitVec 12))) ∧
  ∀ (s : State) (a : BitVec 12) (rd rs1 uimm : BitVec 5), csrAcyclic s.cfg.csrTable = true →
    ((csrFind s.cfg.csrTable a = none ∨ s.hart.priv.code < (a >>> 8).toNat % 4) →
      exec (.csrrw rd rs1 a) s = illegal s ∧ exec (.csrrs rd rs1 a) s = illegal s ∧ exec (.csrrc rd rs1 a) s = illegal s ∧
      exec (.csrrwi rd uimm a) s = illegal s ∧ exec (.csrrsi rd uimm a) s = illegal s ∧
      exec (.csrrci rd uimm a) s = illegal s) ∧
    (((a >>> 10).toNat = 3 ∨ ∃ t m, csrTerminal s.cfg.csrTable a = some (t, m) ∧
        t.kind ∈ [.computed .cycle, .computed .time, .computed .instret]) →
      exec (.csrrw rd rs1 a) s = illegal s ∧ exec (.csrrwi rd uimm a) s = illegal s ∧
      (rs1 ≠ 0 → exec (.csrrs rd rs1 a) s = illegal s ∧ exec (.csrrc rd rs1 a) s = illegal s) ∧
      (uimm ≠ 0 → exec (.csrrsi rd uimm a) s = illegal s ∧ exec (.csrrci rd uimm a) s = illegal s))

/-- R410 to R416: under every table without a cyclic chain of views, the CSR instructions complete when their checks pass.
`csrrw` and `csrrwi` read only if `rd` is not x0 and always write; the others always read, and write only if `rs1` is not
x0, or the immediate is not 0. -/
def Obligations.CsrInstructions : Prop :=
  (∀ (s : State) (a : BitVec 12) (rd rs1 : BitVec 5), csrAcyclic s.cfg.csrTable = true →
     csrReadable s.cfg.csrTable a s.hart.priv = true →
     ∃ old s1, csrValue a s = some (old, s1) ∧
       (csrWritable s.cfg.csrTable a = true →
         AccessesCsr (.csrrw rd rs1 a) rd old (csrWrite a (s.readX rs1) s).hart.csr s ∧
         AccessesCsr (.csrrs rd rs1 a) rd old
           (if rs1 = 0 then s.hart.csr else (csrWrite a (old ||| s.readX rs1) s).hart.csr) s ∧
         AccessesCsr (.csrrc rd rs1 a) rd old
           (if rs1 = 0 then s.hart.csr else (csrWrite a (old &&& ~~~(s.readX rs1)) s).hart.csr) s ∧
         (rd = 0 → exec (.csrrw rd rs1 a) s = .next ((csrWrite a (s.readX rs1) s).retire 4))) ∧
       AccessesCsr (.csrrs rd 0 a) rd old s.hart.csr s ∧ AccessesCsr (.csrrc rd 0 a) rd old s.hart.csr s) ∧
  ∀ (s : State) (a : BitVec 12) (rd uimm : BitVec 5), csrAcyclic s.cfg.csrTable = true →
    csrReadable s.cfg.csrTable a s.hart.priv = true →
    ∃ old s1, csrValue a s = some (old, s1) ∧
      (csrWritable s.cfg.csrTable a = true →
        AccessesCsr (.csrrwi rd uimm a) rd old (csrWrite a (uimm.setWidth 64) s).hart.csr s ∧
        AccessesCsr (.csrrsi rd uimm a) rd old
          (if uimm = 0 then s.hart.csr else (csrWrite a (old ||| uimm.setWidth 64) s).hart.csr) s ∧
        AccessesCsr (.csrrci rd uimm a) rd old
          (if uimm = 0 then s.hart.csr else (csrWrite a (old &&& ~~~(uimm.setWidth 64)) s).hart.csr) s ∧
        (rd = 0 → exec (.csrrwi rd uimm a) s = .next ((csrWrite a (uimm.setWidth 64) s).retire 4))) ∧
      AccessesCsr (.csrrsi rd 0 a) rd old s.hart.csr s ∧ AccessesCsr (.csrrci rd 0 a) rd old s.hart.csr s

/-- R60, R62: a storage register reads its stored value, and a write changes the bits of its mask in it and nothing else;
the registers and masks of the default table are those of R52. In any table the same holds of every storage row, with the
row's mask. -/
def Obligations.StorageCsrMaskedWrite : Prop :=
  (∀ (s : State) (v : Word), s.cfg.csrTable = csrTable →
     let register := fun (a : BitVec 12) (mask : Word) (read : CsrFile → Word) (write : CsrFile → Word → CsrFile) =>
       csrValue a s = some (read s.hart.csr, s) ∧
       csrWrite a v s = s.withCsr (write s.hart.csr ((read s.hart.csr &&& ~~~mask) ||| (v &&& mask)))
     register 0x003 0xFF (fun c => c.fcsr) (fun c v => { c with fcsr := v }) ∧
     register 0x105 0xFFFFFFFFFFFFFFFF (fun c => c.stvec) (fun c v => { c with stvec := v }) ∧
     register 0x106 0xFFFFFFFF (fun c => c.scounteren) (fun c v => { c with scounteren := v }) ∧
     register 0x140 0xFFFFFFFFFFFFFFFF (fun c => c.sscratch) (fun c v => { c with sscratch := v }) ∧
     register 0x141 0xFFFFFFFFFFFFFFFE (fun c => c.sepc) (fun c v => { c with sepc := v }) ∧
     register 0x142 0xFFFFFFFFFFFFFFFF (fun c => c.scause) (fun c v => { c with scause := v }) ∧
     register 0x143 0xFFFFFFFFFFFFFFFF (fun c => c.stval) (fun c v => { c with stval := v }) ∧
     register 0x180 0xFFFFFFFFFFFFFFFF (fun c => c.satp) (fun c v => { c with satp := v }) ∧
     register 0x300 0x7E79AA (fun c => c.mstatus) (fun c v => { c with mstatus := v }) ∧
     register 0x301 0 (fun c => c.misa) (fun c v => { c with misa := v }) ∧
     register 0x302 0xB3FF (fun c => c.medeleg) (fun c v => { c with medeleg := v }) ∧
     register 0x303 0x222 (fun c => c.mideleg) (fun c v => { c with mideleg := v }) ∧
     register 0x304 0xAAA (fun c => c.mie) (fun c v => { c with mie := v }) ∧
     register 0x305 0xFFFFFFFFFFFFFFFF (fun c => c.mtvec) (fun c v => { c with mtvec := v }) ∧
     register 0x306 0xFFFFFFFF (fun c => c.mcounteren) (fun c v => { c with mcounteren := v }) ∧
     register 0x340 0xFFFFFFFFFFFFFFFF (fun c => c.mscratch) (fun c v => { c with mscratch := v }) ∧
     register 0x341 0xFFFFFFFFFFFFFFFE (fun c => c.mepc) (fun c v => { c with mepc := v }) ∧
     register 0x342 0xFFFFFFFFFFFFFFFF (fun c => c.mcause) (fun c v => { c with mcause := v }) ∧
     register 0x343 0xFFFFFFFFFFFFFFFF (fun c => c.mtval) (fun c v => { c with mtval := v }) ∧
     register 0xF11 0 (fun c => c.mvendorid) (fun c v => { c with mvendorid := v }) ∧
     register 0xF12 0 (fun c => c.marchid) (fun c v => { c with marchid := v }) ∧
     register 0xF13 0 (fun c => c.mimpid) (fun c v => { c with mimpid := v }) ∧
     register 0xF14 0 (fun c => c.mhartid) (fun c v => { c with mhartid := v }) ∧
     register 0xF15 0 (fun c => c.mconfigptr) (fun c v => { c with mconfigptr := v })) ∧
  ∀ (row : CsrRow) (a : BitVec 12) (s : State) (v : Word), csrFind s.cfg.csrTable a = some row → row.kind = .storage →
    csrValue a s = some (s.hart.csr.get (.ofAddr a), s) ∧
    csrWrite a v s =
      s.withCsr (s.hart.csr.set (.ofAddr a) ((s.hart.csr.get (.ofAddr a) &&& ~~~row.mask) ||| (v &&& row.mask)))

/-- R54, R59, R63 to R65, R665: under the default table, a view reads its base through its mask and writes it through the
product of the masks; `mip` reads the latch or-ed with the lines and stores only its latch bits; `frm` is `fcsr[7:5]`;
`time` reads the time value; `cycle` and `instret` read a value nothing constrains. The masks are those of R52. That `sip`
reaches STIP is the model's choice: R52 and R634 are followed over R666 (log entry 24). -/
def Obligations.ViewAndComputedCsrs : Prop :=
  (∀ (s : State) (v : Word), s.cfg.csrTable = csrTable →
     csrValue 0x001 s = some (s.hart.csr.fcsr &&& 0x1F, s) ∧
     csrValue 0x100 s = some (s.hart.csr.mstatus &&& 0x80000003000DE762, s) ∧
     csrValue 0x104 s = some (s.hart.csr.mie &&& 0x222, s) ∧
     csrValue 0x144 s = some (mipValue s.hart &&& 0x222, s) ∧
     csrWrite 0x001 v s = s.withCsr { s.hart.csr with fcsr := (s.hart.csr.fcsr &&& ~~~(0x1F : Word)) ||| (v &&& 0x1F) } ∧
     csrWrite 0x100 v s = s.withCsr { s.hart.csr with
       mstatus := (s.hart.csr.mstatus &&& ~~~(0xC6122 : Word)) ||| (v &&& 0xC6122) } ∧
     csrWrite 0x104 v s = s.withCsr { s.hart.csr with mie := (s.hart.csr.mie &&& ~~~(0x222 : Word)) ||| (v &&& 0x222) } ∧
     csrWrite 0x144 v s = s.withCsr { s.hart.csr with mipLatch := v &&& 0x222 }) ∧
  ∀ (s : State) (v : Word), s.cfg.csrTable = csrTable →
    (∃ m, csrValue 0x344 s = some (m, s) ∧ ∀ i, bit m i =
      (bit s.hart.csr.mipLatch i || (i == 3 && s.hart.lines.msip) || (i == 7 && s.hart.lines.mtip) ||
        (i == 9 && s.hart.lines.seip) || (i == 11 && s.hart.lines.meip))) ∧
    csrWrite 0x344 v s = s.withCsr { s.hart.csr with mipLatch := v &&& 0x222 } ∧
    csrValue 0x002 s = some ((s.hart.csr.fcsr >>> 5) &&& 7, s) ∧
    csrWrite 0x002 v s = s.withCsr { s.hart.csr with
      fcsr := (s.hart.csr.fcsr &&& ~~~(0xE0 : Word)) ||| ((v &&& 7) <<< 5) } ∧
    csrValue 0xC01 s = some (s.mtime, s) ∧
    (∃ w, csrValue 0xC00 s = some (w, { s with draws := s.draws + 1 })) ∧
    ∃ w, csrValue 0xC02 s = some (w, { s with draws := s.draws + 1 })

/-! ### The bus and memory -/

/-- R101: bytes are read and written little-endian, one for one; a machine of the other byte order is refused at every
step. -/
def Obligations.LittleEndianBus : Prop :=
  (∀ (s : State) (pa : Word) (n : Nat), n ∈ [1, 2, 4, 8] → RamAt s pa n →
    ∃ v, busRead pa n s = .ok v s ∧
      v.toNat = ((List.range n).map fun i => (s.readByte (pa.toNat + i)).toNat * 2 ^ (8 * i)).sum) ∧
  (∀ (s : State) (pa v : Word) (n : Nat), n ∈ [1, 2, 4, 8] → RamAt s pa n → Memory.wf s.mem = true →
    ∃ t, busWrite pa n v s = .ok () t ∧ HoldsBytes t pa.toNat n v ∧ OtherBytesKept pa.toNat n s t ∧
      Memory.wf t.mem = true ∧ t = { s with mem := t.mem }) ∧
  ∀ s : State, s.cfg.byteOrder = .big → step s = .refused .bigEndian

/-- R131: an access no single range answers, or that runs past the end of one, is the model fault BusFault: for the bus; for the
read of a page-table entry in a walk and for the write-back of A and D; for the accessors of data and for either parcel of a
fetch, at the address their translation gives; and so for every load, store, load-reserved, store-conditional and AMO, the
compressed and the floating-point ones among them, translated or not. An access past the top of the address space is such an
access (log entry 19). -/
def Obligations.UnansweredAccessIsBusFault : Prop :=
  ∀ (s : State) (a : Word) (n : Nat),
    (2 ^ 64 < a.toNat + n ∨ ∀ r, r ∈ s.cfg.busMap → ¬(r.base ≤ a.toNat ∧ a.toNat + n ≤ r.base + r.size)) →
    busRead a n s = .fault .busFault ∧ (∀ v, busWrite a n v s = .fault .busFault) ∧
    (n = 8 →
      (∀ (va tbl : Word) (kind : Access) (asid i : Nat), pteAddress tbl va i = a →
        descend va kind asid (i + 1) tbl s = .fault .busFault) ∧
      ∀ (e : TlbEntry) (va : Word) (kind : Access), e.pteAddr = a →
        touchAllowed e.pte kind s.hart.priv (statusSUM s.hart.csr.mstatus) = true →
        (pteA e.pte = false ∨ (kind = .write ∧ pteD e.pte = false)) →
        touch e va kind s = .fault .busFault ∧
        ∀ (levels asid : Nat) (root : Word), tlbLookup s.hart.tlb va asid = some e →
          walk levels va kind asid root s = .fault .busFault) ∧
    (∀ (va : Word) (s1 : State), (Untranslated s ∨ va.toNat % 4096 + n ≤ 4096) →
      (translate va .read s = .ok a s1 → memRead va n s = .fault .busFault) ∧
      (translate va .write s = .ok a s1 → ∀ v, memWrite va n v s = .fault .busFault)) ∧
    (n = 2 →
      (∀ s1, translate s.hart.pc .fetch s = .ok a s1 → fetch s = .fault .busFault) ∧
      ∀ (pa lo : Word) (s1 s2 s3 : State), translate s.hart.pc .fetch s = .ok pa s1 → busRead pa 2 s1 = .ok lo s2 →
        lo &&& 3 = 3 → translate (s.hart.pc + 2) .fetch s2 = .ok a s3 → fetch s = .fault .busFault) ∧
    (translate s.hart.pc .fetch s = .fault .busFault → fetch s = .fault .busFault) ∧
    (fetch s = .fault .busFault → runInstruction s = .fault .busFault) ∧
    ∀ (i : Instr) (va : Word) (rd rs1 rs2 : BitVec 5) (imm : BitVec 12) (p q : BitVec 3) (u7 : BitVec 7) (u8 : BitVec 8)
      (u9 : BitVec 9) (aq rl : BitVec 1),
      let ea := effectiveAddress rs1 (sext imm) s
      let at7 := effectiveAddress (primed q) (zext u7) s
      let at8 := effectiveAddress (primed q) (zext u8) s
      let sp8 := effectiveAddress 2 (zext u8) s
      let sp9 := effectiveAddress 2 (zext u9) s
      ((i, va, n) ∈ [(Instr.lb rd rs1 imm, ea, 1), (.lbu rd rs1 imm, ea, 1), (.lh rd rs1 imm, ea, 2),
          (.lhu rd rs1 imm, ea, 2), (.lw rd rs1 imm, ea, 4), (.lwu rd rs1 imm, ea, 4), (.ld rd rs1 imm, ea, 8), (.cLw p q u7, at7, 4),
          (.cLd p q u8, at8, 8), (.cLwsp rd u8, sp8, 4), (.cLdsp rd u9, sp9, 8)] → BusFaults .read i va n a s) ∧
      ((i, va, n) ∈ [(Instr.sb rs1 rs2 imm, ea, 1), (.sh rs1 rs2 imm, ea, 2), (.sw rs1 rs2 imm, ea, 4),
          (.sd rs1 rs2 imm, ea, 8), (.cSw p q u7, at7, 4), (.cSd p q u8, at8, 8), (.cSwsp rs2 u8, sp8, 4),
          (.cSdsp rs2 u9, sp9, 8)] → BusFaults .write i va n a s) ∧
      (s.cfg.fpMemoryOps = .implemented →
        ((i, va, n) ∈ [(Instr.flw rd rs1 imm, ea, 4), (.fld rd rs1 imm, ea, 8), (.cFld p q u8, at8, 8),
            (.cFldsp rd u9, sp9, 8)] → BusFaults .read i va n a s) ∧
        ((i, va, n) ∈ [(Instr.fsw rs1 rs2 imm, ea, 4), (.fsd rs1 rs2 imm, ea, 8), (.cFsd p q u8, at8, 8),
            (.cFsdsp rs2 u9, sp9, 8)] → BusFaults .write i va n a s)) ∧
      ((s.readX rs1).toNat % n = 0 →
        ((i, n) ∈ [(Instr.lrW rd rs1 aq rl, 4), (.lrD rd rs1 aq rl, 8)] → BusFaults .read i (s.readX rs1) n a s) ∧
        ((i, n) ∈ [(Instr.scW rd rs1 rs2 aq rl, 4), (.amoswapW rd rs1 rs2 aq rl, 4), (.amoaddW rd rs1 rs2 aq rl, 4),
            (.amoxorW rd rs1 rs2 aq rl, 4), (.amoandW rd rs1 rs2 aq rl, 4), (.amoorW rd rs1 rs2 aq rl, 4),
            (.amominW rd rs1 rs2 aq rl, 4), (.amomaxW rd rs1 rs2 aq rl, 4), (.amominuW rd rs1 rs2 aq rl, 4),
            (.amomaxuW rd rs1 rs2 aq rl, 4), (.scD rd rs1 rs2 aq rl, 8), (.amoswapD rd rs1 rs2 aq rl, 8),
            (.amoaddD rd rs1 rs2 aq rl, 8), (.amoxorD rd rs1 rs2 aq rl, 8), (.amoandD rd rs1 rs2 aq rl, 8),
            (.amoorD rd rs1 rs2 aq rl, 8), (.amominD rd rs1 rs2 aq rl, 8), (.amomaxD rd rs1 rs2 aq rl, 8),
            (.amominuD rd rs1 rs2 aq rl, 8), (.amomaxuD rd rs1 rs2 aq rl, 8)] →
          BusFaults .write i (s.readX rs1) n a s))

/-- R109, R667: an access to a device window is one entry of the bus log, with the value the environment answers or the
value written, and leaves memory alone; a load, a store and an AMO make exactly their accesses, in order. The log and the
free value of an answer are the model's form of the device (log entry 9). -/
def Obligations.DeviceAccessesAreLogged : Prop :=
  (∀ (s : State) (pa : Word) (n : Nat), n ∈ [1, 2, 4, 8] → DeviceAt s pa n →
    (∃ w, busRead pa n s = .ok w { s with draws := s.draws + 1, busLog := ⟨false, pa, n, w⟩ :: s.busLog } ∧
      w.toNat < 2 ^ (8 * n)) ∧
    ∀ v, ∃ w, busWrite pa n v s = .ok () { s with busLog := ⟨true, pa, n, w⟩ :: s.busLog } ∧
      w.toNat = v.toNat % 2 ^ (8 * n)) ∧
  ∀ (s : State) (i : Instr) (n : Nat) (rd rs1 rs2 : BitVec 5) (imm : BitVec 12) (aq rl : BitVec 1), Untranslated s →
    let ea := effectiveAddress rs1 (sext imm) s
    let a := s.readX rs1
    (DeviceAt s ea n →
      ((i, n) ∈ [(Instr.lb rd rs1 imm, 1), (.lbu rd rs1 imm, 1), (.lh rd rs1 imm, 2), (.lhu rd rs1 imm, 2),
         (.lw rd rs1 imm, 4), (.lwu rd rs1 imm, 4), (.ld rd rs1 imm, 8)] →
        ∃ w t, exec i s = .next t ∧ t.mem = s.mem ∧ t.busLog = ⟨false, ea, n, w⟩ :: s.busLog) ∧
      ((i, n) ∈ [(Instr.sb rs1 rs2 imm, 1), (.sh rs1 rs2 imm, 2), (.sw rs1 rs2 imm, 4), (.sd rs1 rs2 imm, 8)] →
        ∃ w t, exec i s = .next t ∧ t.mem = s.mem ∧ t.busLog = ⟨true, ea, n, w⟩ :: s.busLog ∧
          w.toNat = (s.readX rs2).toNat % 2 ^ (8 * n))) ∧
    (DeviceAt s a 8 → a.toNat % 8 = 0 →
      ∃ old t, exec (.amoaddD rd rs1 rs2 aq rl) s = .next t ∧ t.mem = s.mem ∧
        t.busLog = ⟨true, a, 8, old + s.readX rs2⟩ :: ⟨false, a, 8, old⟩ :: s.busLog ∧
        t.readX rd = (if rd = 0 then 0 else old))

/-! ### Translation -/

/-- R110, R111: M-mode and bare mode use the address unchanged; MODE 8, 9 and 10 walk 3, 4 and 5 levels; any other
MODE is the model fault UnsupportedSatpMode. -/
def Obligations.TranslateByMode : Prop :=
  ∀ (va : Word) (kind : Access) (s : State),
    (s.hart.priv = .machine → translate va kind s = .ok va s) ∧
    (satpMode s.hart.csr.satp = 0 → translate va kind s = .ok va s) ∧
    (s.hart.priv ≠ .machine →
      (∀ levels, (satpMode s.hart.csr.satp, levels) ∈ [(8, 3), (9, 4), (10, 5)] →
        translate va kind s =
          walk levels va kind (satpAsid s.hart.csr.satp) (satpPpn s.hart.csr.satp) s) ∧
      (satpMode s.hart.csr.satp ∉ [0, 8, 9, 10] → translate va kind s = .fault .unsupportedSatpMode))

/-- R116 to R118, R126: what Touch checks; and where a check fails, Touch raises the page fault of the access with the
address as the trap value, and nothing is written or inserted: in Touch itself, in a walk that hits the TLB, and at a leaf
of the descent. -/
def Obligations.TouchChecks : Prop :=
  (∀ (p : Word) (priv : Priv) (sum : Bool), priv ≠ .machine →
    (touchAllowed p .fetch priv sum = true ↔
      pteX p = true ∧ (pteU p = true → priv = .user) ∧ (pteU p = false → priv ≠ .user)) ∧
    (touchAllowed p .read priv sum = true ↔
      pteR p = true ∧ (pteU p = true → priv = .supervisor → sum = true) ∧ (pteU p = false → priv ≠ .user)) ∧
    (touchAllowed p .write priv sum = true ↔
      pteW p = true ∧ (pteU p = true → priv = .supervisor → sum = true) ∧ (pteU p = false → priv ≠ .user))) ∧
  (∀ (e : TlbEntry) (va : Word) (kind : Access) (s : State),
    touchAllowed e.pte kind s.hart.priv (statusSUM s.hart.csr.mstatus) = false →
    touch e va kind s = .raise kind.pageFault va s ∧
    ∀ (levels : Nat) (asid : Nat) (root : Word), tlbLookup s.hart.tlb va asid = some e →
      walk levels va kind asid root s = .raise kind.pageFault va s) ∧
  (∀ (va a : Word) (kind : Access) (asid i : Nat) (s : State), RamAt s (pteAddress a va i) 8 →
    ∀ p, p = Memory.readLE s.mem (pteAddress a va i).toNat 8 → pteV p = true →
      (pteR p = true ∨ (pteX p = true ∧ pteW p = false)) →
      touchAllowed p kind s.hart.priv (statusSUM s.hart.csr.mstatus) = false →
      descend va kind asid (i + 1) a s = .raise kind.pageFault va s) ∧
  Access.fetch.pageFault = .instructionPageFault ∧ Access.read.pageFault = .loadPageFault ∧
  Access.write.pageFault = .storeAmoPageFault

/-- R119: after its checks Touch sets A, and D for a write, in the page-table entry in memory and in the cached one,
when A is clear or a write finds D clear; otherwise nothing is written. -/
def Obligations.TouchUpdatesAccessedAndDirty : Prop :=
  ∀ (e : TlbEntry) (va : Word) (kind : Access) (s : State),
    touchAllowed e.pte kind s.hart.priv (statusSUM s.hart.csr.mstatus) = true →
    (pteA e.pte = true → (kind = .write → pteD e.pte = true) → touch e va kind s = .ok e s) ∧
    ((pteA e.pte = false ∨ (kind = .write ∧ pteD e.pte = false)) → RamAt s e.pteAddr 8 → Memory.wf s.mem = true →
      ∃ p t, touch e va kind s = .ok { e with pte := p } t ∧
        (∀ i, bit p i = (bit e.pte i || i == 6 || (i == 7 && kind == .write))) ∧
        HoldsBytes t e.pteAddr.toNat 8 p ∧ OtherBytesKept e.pteAddr.toNat 8 s t ∧ t = { s with mem := t.mem })

/-- R112, R119, R121: a hit whose checks pass reads no page table: the physical address is the entry's base plus the offset
in the page. With A set, and D for a write, nothing at all changes; else the entry with the new bits is written to memory,
and every key that led to the entry leads to the one with the new bits. That the page at the top of the address space can be
hit is the model's choice (log entry 25). -/
def Obligations.TlbHitTranslates : Prop :=
  ∀ (va : Word) (kind : Access) (s : State) (e : TlbEntry) (levels : Nat) (root : Word) (asid : Nat),
    tlbLookup s.hart.tlb va asid = some e →
    touchAllowed e.pte kind s.hart.priv (statusSUM s.hart.csr.mstatus) = true →
    (pteA e.pte = true → (kind = .write → pteD e.pte = true) →
      walk levels va kind asid root s = .ok (e.pbase + (va - e.vbase)) s) ∧
    ((pteA e.pte = false ∨ (kind = .write ∧ pteD e.pte = false)) → RamAt s e.pteAddr 8 → Memory.wf s.mem = true →
      ∃ p t, walk levels va kind asid root s = .ok (e.pbase + (va - e.vbase)) t ∧
        (∀ i, bit p i = (bit e.pte i || i == 6 || (i == 7 && kind == .write))) ∧
        HoldsBytes t e.pteAddr.toNat 8 p ∧ OtherBytesKept e.pteAddr.toNat 8 s t ∧
        (∀ k key, tlbFind t.hart.tlb k key =
          (tlbFind s.hart.tlb k key).map fun d => if d = e then { e with pte := p } else d) ∧
        t = { s with mem := t.mem, hart := { s.hart with tlb := t.hart.tlb } })

/-- R113 to R116, R119: with no level left the walk is the page fault of the access, wherever the table lies; at each level it
reads one page-table entry; an invalid one is the page fault of the access; a leaf whose checks pass is touched, inserted and
gives the address, and where A, or D for a write, is due, the entry with the new bits is written to memory and is the one
inserted; any other entry names the next table. -/
def Obligations.WalkClassifiesEntries : Prop :=
  ∀ (va a : Word) (kind : Access) (asid : Nat) (s : State),
    descend va kind asid 0 a s = .raise kind.pageFault va s ∧
    ∀ i, RamAt s (pteAddress a va i) 8 → ∀ p, p = Memory.readLE s.mem (pteAddress a va i).toNat 8 →
      ((pteV p = false ∨ (pteW p = true ∧ pteR p = false)) →
        descend va kind asid (i + 1) a s = .raise kind.pageFault va s) ∧
      (pteV p = true → pteR p = false → pteW p = false → pteX p = false →
        descend va kind asid (i + 1) a s = descend va kind asid i (ptePpn p) s) ∧
      (pteV p = true → (pteR p = true ∨ (pteX p = true ∧ pteW p = false)) →
        touchAllowed p kind s.hart.priv (statusSUM s.hart.csr.mstatus) = true → pteA p = true →
        (kind = .write → pteD p = true) →
        descend va kind asid (i + 1) a s =
          .ok ((leafEntry va asid i (pteAddress a va i) p).physical va)
            (s.withTlb (tlbInsert (leafEntry va asid i (pteAddress a va i) p) s.hart.tlb))) ∧
      (pteV p = true → (pteR p = true ∨ (pteX p = true ∧ pteW p = false)) →
        touchAllowed p kind s.hart.priv (statusSUM s.hart.csr.mstatus) = true →
        (pteA p = false ∨ (kind = .write ∧ pteD p = false)) → Memory.wf s.mem = true →
        ∃ q t, descend va kind asid (i + 1) a s =
            .ok ((leafEntry va asid i (pteAddress a va i) p).physical va) t ∧
          (∀ j, bit q j = (bit p j || j == 6 || (j == 7 && kind == .write))) ∧
          HoldsBytes t (pteAddress a va i).toNat 8 q ∧ OtherBytesKept (pteAddress a va i).toNat 8 s t ∧
          t.hart.tlb = tlbInsert { leafEntry va asid i (pteAddress a va i) p with pte := q } s.hart.tlb ∧
          t = { s with mem := t.mem, hart := { s.hart with tlb := t.hart.tlb } })

/-- R113, R120: the low bits of a translated address are those of the virtual address, the others those of the page
number, the entry covers the page of the address, and the address fits in 56 bits. That the entry of the page at the top of
the address space covers its addresses is the model's choice: the end of a page is computed exactly (log entry 25). -/
def Obligations.LeafKeepsThePageOffset : Prop :=
  ∀ (va pteAddr p : Word) (asid i : Nat), i < 5 →
    let e := leafEntry va asid i pteAddr p
    (∀ k, k < 12 + 9 * i → bit (e.physical va) k = bit va k) ∧
    (∀ k, 12 + 9 * i ≤ k → k < 56 → bit (e.physical va) k = bit p (k - 2)) ∧
    (e.physical va).toNat < 2 ^ 56 ∧ e.contains va = true ∧ e.size = 4096 * 512 ^ i ∧
    e.asidKey = (if bit p 5 then 0 else asid)

/-- R121: after an insertion every key of the page maps to the new entry, and every other key to what it mapped to.
The form of the TLB is the model's (log entry 8), and that the page at the top of the address space has its keys is the model's
choice: the end of a page is computed exactly (log entry 25). -/
def Obligations.TlbInsertReplacesItsKeys : Prop :=
  ∀ (tlb : List TlbEntry) (e : TlbEntry) (k asid : Nat),
    let lo := e.vbase.toNat / 4096
    let hi := lo + e.size / 4096
    (asid = e.asidKey ∧ lo ≤ k ∧ k < hi → tlbFind (tlbInsert e tlb) k asid = some { e with keys := [(lo, hi)] }) ∧
    (¬(asid = e.asidKey ∧ lo ≤ k ∧ k < hi) →
      (tlbFind (tlbInsert e tlb) k asid).map (fun d => { d with keys := [] }) =
        (tlbFind tlb k asid).map fun d => { d with keys := [] })

/-- R76, R124: the boundary between two steps removes entries of the current hart's TLB and does nothing else, and removes
none with `TLB_MAY_DROP` off; what is left is found under no key that had no entry. Which entries go is free, and the draw
that the choice takes is the model's (log entry 6). -/
def Obligations.TlbDropsOnlyRemove : Prop :=
  ∀ s : State,
    (dropTlb s).hart.tlb.Sublist s.hart.tlb ∧
    (∃ d, dropTlb s = { s with draws := d, hart := { s.hart with tlb := (dropTlb s).hart.tlb } }) ∧
    (s.cfg.tlbMayDrop = false → dropTlb s = s) ∧
    ∀ k key e, tlbFind (dropTlb s).hart.tlb k key = some e → (tlbFind s.hart.tlb k key).isSome = true

/-- R104, R105, R126, R128: every load and store, the compressed and the floating-point ones among them, translates its
effective address once, a load as a read and a store as a write: a fault of the translation is the page fault of that kind
with the effective address; an access that crosses a page under translation is the model fault MisalignedPageCross, and
without translation it may cross; the others reach the bytes from the translated address of their first one, and no others, and the
pc advances by the instruction's length (R203), which is 2 for the compressed ones (R440). -/
def Obligations.DataAccesses : Prop :=
  (∀ (s : State) (rd rs1 rs2 : BitVec 5) (imm : BitVec 12) (p q : BitVec 3) (u7 : BitVec 7) (u8 : BitVec 8) (u9 : BitVec 9),
     let ea := effectiveAddress rs1 (sext imm) s
     let at7 := effectiveAddress (primed q) (zext u7) s
     let at8 := effectiveAddress (primed q) (zext u8) s
     let sp8 := effectiveAddress 2 (zext u8) s
     let sp9 := effectiveAddress 2 (zext u9) s
     let bytes := fun (n : Nat) (t : State) (pa : Word) => Memory.readLE t.mem pa.toNat n
     let stored := fun (n len : Nat) (v pa : Word) (t : State) => (t.withMem (Memory.writeLE t.mem pa.toNat n v)).retire len
     AccessesThrough .read (.lb rd rs1 imm) ea 1
       (fun pa t => (t.writeX rd (((bytes 1 t pa).setWidth 8).signExtend 64)).retire s.len.bytes) s ∧
     AccessesThrough .read (.lbu rd rs1 imm) ea 1 (fun pa t => (t.writeX rd (bytes 1 t pa)).retire s.len.bytes) s ∧
     AccessesThrough .read (.lh rd rs1 imm) ea 2
       (fun pa t => (t.writeX rd (((bytes 2 t pa).setWidth 16).signExtend 64)).retire s.len.bytes) s ∧
     AccessesThrough .read (.lhu rd rs1 imm) ea 2 (fun pa t => (t.writeX rd (bytes 2 t pa)).retire s.len.bytes) s ∧
     AccessesThrough .read (.lw rd rs1 imm) ea 4
       (fun pa t => (t.writeX rd (((bytes 4 t pa).setWidth 32).signExtend 64)).retire s.len.bytes) s ∧
     AccessesThrough .read (.lwu rd rs1 imm) ea 4 (fun pa t => (t.writeX rd (bytes 4 t pa)).retire s.len.bytes) s ∧
     AccessesThrough .read (.ld rd rs1 imm) ea 8 (fun pa t => (t.writeX rd (bytes 8 t pa)).retire s.len.bytes) s ∧
     AccessesThrough .write (.sb rs1 rs2 imm) ea 1 (stored 1 s.len.bytes (s.readX rs2)) s ∧
     AccessesThrough .write (.sh rs1 rs2 imm) ea 2 (stored 2 s.len.bytes (s.readX rs2)) s ∧
     AccessesThrough .write (.sw rs1 rs2 imm) ea 4 (stored 4 s.len.bytes (s.readX rs2)) s ∧
     AccessesThrough .write (.sd rs1 rs2 imm) ea 8 (stored 8 s.len.bytes (s.readX rs2)) s ∧
     AccessesThrough .read (.cLw p q u7) at7 4
       (fun pa t => (t.writeX (primed p) (((bytes 4 t pa).setWidth 32).signExtend 64)).retire 2) s ∧
     AccessesThrough .read (.cLd p q u8) at8 8 (fun pa t => (t.writeX (primed p) (bytes 8 t pa)).retire 2) s ∧
     AccessesThrough .read (.cLwsp rd u8) sp8 4
       (fun pa t => (t.writeX rd (((bytes 4 t pa).setWidth 32).signExtend 64)).retire 2) s ∧
     AccessesThrough .read (.cLdsp rd u9) sp9 8 (fun pa t => (t.writeX rd (bytes 8 t pa)).retire 2) s ∧
     AccessesThrough .write (.cSw p q u7) at7 4 (stored 4 2 (s.readX (primed p))) s ∧
     AccessesThrough .write (.cSd p q u8) at8 8 (stored 8 2 (s.readX (primed p))) s ∧
     AccessesThrough .write (.cSwsp rs2 u8) sp8 4 (stored 4 2 (s.readX rs2)) s ∧
     AccessesThrough .write (.cSdsp rs2 u9) sp9 8 (stored 8 2 (s.readX rs2)) s) ∧
  ∀ (s : State) (rd rs1 rs2 : BitVec 5) (imm : BitVec 12) (p q : BitVec 3) (u8 : BitVec 8) (u9 : BitVec 9),
    s.cfg.fpMemoryOps = .implemented →
    let ea := effectiveAddress rs1 (sext imm) s
    let at8 := effectiveAddress (primed q) (zext u8) s
    let sp9 := effectiveAddress 2 (zext u9) s
    let bytes := fun (n : Nat) (t : State) (pa : Word) => Memory.readLE t.mem pa.toNat n
    let stored := fun (n len : Nat) (v pa : Word) (t : State) => (t.withMem (Memory.writeLE t.mem pa.toNat n v)).retire len
    AccessesThrough .read (.flw rd rs1 imm) ea 4
      (fun pa t => (t.writeF rd (0xFFFFFFFF00000000 ||| bytes 4 t pa)).retire s.len.bytes) s ∧
    AccessesThrough .read (.fld rd rs1 imm) ea 8 (fun pa t => (t.writeF rd (bytes 8 t pa)).retire s.len.bytes) s ∧
    AccessesThrough .read (.cFld p q u8) at8 8 (fun pa t => (t.writeF (primed p) (bytes 8 t pa)).retire 2) s ∧
    AccessesThrough .read (.cFldsp rd u9) sp9 8 (fun pa t => (t.writeF rd (bytes 8 t pa)).retire 2) s ∧
    AccessesThrough .write (.fsw rs1 rs2 imm) ea 4 (stored 4 s.len.bytes (s.readF rs2)) s ∧
    AccessesThrough .write (.fsd rs1 rs2 imm) ea 8 (stored 8 s.len.bytes (s.readF rs2)) s ∧
    AccessesThrough .write (.cFsd p q u8) at8 8 (stored 8 2 (s.readF (primed p))) s ∧
    AccessesThrough .write (.cFsdsp rs2 u9) sp9 8 (stored 8 2 (s.readF rs2)) s

/-- R126, R128, R380: an aligned atomic translates its address once, load-reserved as a read and the others as a write, and
that one translation serves both the read and the write of an AMO: a fault of the translation is the page fault of that kind
with the address; the others reach the bytes from the translated address, and the pc advances by the instruction's length (R203). -/
def Obligations.AtomicAccesses : Prop :=
  (∀ (s : State) (rd rs1 rs2 : BitVec 5) (aq rl : BitVec 1), (s.readX rs1).toNat % 4 = 0 →
     let a := s.readX rs1
     let amo := fun (i : Instr) (op : BitVec 32 → BitVec 32 → BitVec 32) =>
       AccessesThrough .write i a 4 (fun pa t =>
         let old : BitVec 32 := (Memory.readLE t.mem pa.toNat 4).setWidth 32
         let new := op old ((s.readX rs2).setWidth 32)
         ((t.withMem (Memory.writeLE t.mem pa.toNat 4 (new.setWidth 64))).writeX rd (old.signExtend 64)).retire s.len.bytes) s
     AccessesThrough .read (.lrW rd rs1 aq rl) a 4
       (fun pa t => (t.writeX rd (((Memory.readLE t.mem pa.toNat 4).setWidth 32).signExtend 64)).retire s.len.bytes) s ∧
     AccessesThrough .write (.scW rd rs1 rs2 aq rl) a 4
       (fun pa t => ((t.withMem (Memory.writeLE t.mem pa.toNat 4 (s.readX rs2))).writeX rd 0).retire s.len.bytes) s ∧
     amo (.amoswapW rd rs1 rs2 aq rl) (fun _ v => v) ∧
     amo (.amoaddW rd rs1 rs2 aq rl) (fun old v => old + v) ∧
     amo (.amoxorW rd rs1 rs2 aq rl) (fun old v => old ^^^ v) ∧
     amo (.amoandW rd rs1 rs2 aq rl) (fun old v => old &&& v) ∧
     amo (.amoorW rd rs1 rs2 aq rl) (fun old v => old ||| v) ∧
     amo (.amominW rd rs1 rs2 aq rl) (fun old v => if old.toInt ≤ v.toInt then old else v) ∧
     amo (.amomaxW rd rs1 rs2 aq rl) (fun old v => if old.toInt ≥ v.toInt then old else v) ∧
     amo (.amominuW rd rs1 rs2 aq rl) (fun old v => if old.toNat ≤ v.toNat then old else v) ∧
     amo (.amomaxuW rd rs1 rs2 aq rl) (fun old v => if old.toNat ≥ v.toNat then old else v)) ∧
  ∀ (s : State) (rd rs1 rs2 : BitVec 5) (aq rl : BitVec 1), (s.readX rs1).toNat % 8 = 0 →
    let a := s.readX rs1
    let amo := fun (i : Instr) (op : Word → Word → Word) =>
      AccessesThrough .write i a 8 (fun pa t =>
        let old := Memory.readLE t.mem pa.toNat 8
        ((t.withMem (Memory.writeLE t.mem pa.toNat 8 (op old (s.readX rs2)))).writeX rd old).retire s.len.bytes) s
    AccessesThrough .read (.lrD rd rs1 aq rl) a 8
      (fun pa t => (t.writeX rd (Memory.readLE t.mem pa.toNat 8)).retire s.len.bytes) s ∧
    AccessesThrough .write (.scD rd rs1 rs2 aq rl) a 8
      (fun pa t => ((t.withMem (Memory.writeLE t.mem pa.toNat 8 (s.readX rs2))).writeX rd 0).retire s.len.bytes) s ∧
    amo (.amoswapD rd rs1 rs2 aq rl) (fun _ v => v) ∧
    amo (.amoaddD rd rs1 rs2 aq rl) (fun old v => old + v) ∧
    amo (.amoxorD rd rs1 rs2 aq rl) (fun old v => old ^^^ v) ∧
    amo (.amoandD rd rs1 rs2 aq rl) (fun old v => old &&& v) ∧
    amo (.amoorD rd rs1 rs2 aq rl) (fun old v => old ||| v) ∧
    amo (.amominD rd rs1 rs2 aq rl) (fun old v => if old.toInt ≤ v.toInt then old else v) ∧
    amo (.amomaxD rd rs1 rs2 aq rl) (fun old v => if old.toInt ≥ v.toInt then old else v) ∧
    amo (.amominuD rd rs1 rs2 aq rl) (fun old v => if old.toNat ≤ v.toNat then old else v) ∧
    amo (.amomaxuD rd rs1 rs2 aq rl) (fun old v => if old.toNat ≥ v.toNat then old else v)

/-- R126, R200, R632, R633: a fetch translates each parcel by itself: a fault of the first is InstructionPageFault with the
pc as the trap value, a fault of the second, after a first parcel of a 4-byte instruction, with the pc plus 2; either is
taken with the pc of the instruction saved. -/
def Obligations.InstructionPageFaults : Prop :=
  ∀ (s s1 : State) (e : Exc) (v : Word),
    (translate s.hart.pc .fetch s = .raise e v s1 →
      e = .instructionPageFault ∧ v = s.hart.pc ∧ s1.hart.pc = s.hart.pc ∧
      fetch s = .raise .instructionPageFault s.hart.pc s1 ∧
      runInstruction s = raiseExc .instructionPageFault s.hart.pc s1 ∧
      (HandlerInstalled 12 s.hart → ∃ t, runInstruction s = .next t ∧ TakesException 12 s.hart.pc s1 t)) ∧
    ∀ (pa lo : Word) (s2 s3 : State), translate s.hart.pc .fetch s = .ok pa s1 → busRead pa 2 s1 = .ok lo s2 →
      lo &&& 3 = 3 → translate (s.hart.pc + 2) .fetch s2 = .raise e v s3 →
      e = .instructionPageFault ∧ v = s.hart.pc + 2 ∧ s3.hart.pc = s.hart.pc ∧
      fetch s = .raise .instructionPageFault (s.hart.pc + 2) s3 ∧
      runInstruction s = raiseExc .instructionPageFault (s.hart.pc + 2) s3 ∧
      (HandlerInstalled 12 s.hart → ∃ t, runInstruction s = .next t ∧ TakesException 12 (s.hart.pc + 2) s3 t)

/-! ### Integer instructions -/

/-- R261 to R268, R270, R271, R283 to R285: the upper immediates, the arithmetic, comparison and logic on an
immediate, and the shifts by an immediate (`slli` is stated with the semihosting toggle). -/
def Obligations.IntegerImmediates : Prop :=
  (∀ (s : State) (rd rs1 : BitVec 5) (imm : BitVec 12) (upper : BitVec 32),
     WritesX (.lui rd upper) 4 rd (upper.signExtend 64) s ∧
     WritesX (.auipc rd upper) 4 rd (s.hart.pc + upper.signExtend 64) s ∧
     WritesX (.addi rd rs1 imm) 4 rd (s.readX rs1 + imm.signExtend 64) s ∧
     WritesX (.slti rd rs1 imm) 4 rd (if (s.readX rs1).toInt < imm.toInt then 1 else 0) s ∧
     WritesX (.sltiu rd rs1 imm) 4 rd (if (s.readX rs1).toNat < (imm.signExtend 64).toNat then 1 else 0) s ∧
     WritesX (.xori rd rs1 imm) 4 rd (s.readX rs1 ^^^ imm.signExtend 64) s ∧
     WritesX (.ori rd rs1 imm) 4 rd (s.readX rs1 ||| imm.signExtend 64) s ∧
     WritesX (.andi rd rs1 imm) 4 rd (s.readX rs1 &&& imm.signExtend 64) s) ∧
  ∀ (s : State) (rd rs1 : BitVec 5) (sh : BitVec 6) (shw : BitVec 5),
    WritesX (.srli rd rs1 sh) 4 rd (BitVec.ofNat 64 ((s.readX rs1).toNat / 2 ^ sh.toNat)) s ∧
    WritesX (.srai rd rs1 sh) 4 rd (BitVec.ofInt 64 ((s.readX rs1).toInt / 2 ^ sh.toNat)) s ∧
    WritesX (.slliw rd rs1 shw) 4 rd ((BitVec.ofNat 32 ((s.readX rs1).toNat * 2 ^ shw.toNat)).signExtend 64) s ∧
    WritesX (.srliw rd rs1 shw) 4 rd
      ((BitVec.ofNat 32 (((s.readX rs1).setWidth 32).toNat / 2 ^ shw.toNat)).signExtend 64) s ∧
    WritesX (.sraiw rd rs1 shw) 4 rd
      ((BitVec.ofInt 32 (((s.readX rs1).setWidth 32).toInt / 2 ^ shw.toNat)).signExtend 64) s

/-- R272 to R282, R286 to R290: the operations on two registers, at 64 bits; and the word forms, which compute on the low 32
bits and sign-extend the 32-bit result. -/
def Obligations.RegisterOperations : Prop :=
  (∀ (s : State) (rd rs1 rs2 : BitVec 5),
     WritesX (.add rd rs1 rs2) 4 rd (s.readX rs1 + s.readX rs2) s ∧
     WritesX (.sub rd rs1 rs2) 4 rd (s.readX rs1 - s.readX rs2) s ∧
     WritesX (.sll rd rs1 rs2) 4 rd (BitVec.ofNat 64 ((s.readX rs1).toNat * 2 ^ ((s.readX rs2).toNat % 64))) s ∧
     WritesX (.slt rd rs1 rs2) 4 rd (if (s.readX rs1).toInt < (s.readX rs2).toInt then 1 else 0) s ∧
     WritesX (.sltu rd rs1 rs2) 4 rd (if (s.readX rs1).toNat < (s.readX rs2).toNat then 1 else 0) s ∧
     WritesX (.xor rd rs1 rs2) 4 rd (s.readX rs1 ^^^ s.readX rs2) s ∧
     WritesX (.srl rd rs1 rs2) 4 rd (BitVec.ofNat 64 ((s.readX rs1).toNat / 2 ^ ((s.readX rs2).toNat % 64))) s ∧
     WritesX (.sra rd rs1 rs2) 4 rd (BitVec.ofInt 64 ((s.readX rs1).toInt / 2 ^ ((s.readX rs2).toNat % 64))) s ∧
     WritesX (.or rd rs1 rs2) 4 rd (s.readX rs1 ||| s.readX rs2) s ∧
     WritesX (.and rd rs1 rs2) 4 rd (s.readX rs1 &&& s.readX rs2) s) ∧
  ∀ (s : State) (rd rs1 rs2 : BitVec 5) (imm : BitVec 12),
    WritesX (.addiw rd rs1 imm) 4 rd (((s.readX rs1).setWidth 32 + imm.signExtend 32).signExtend 64) s ∧
    WritesX (.addw rd rs1 rs2) 4 rd (((s.readX rs1).setWidth 32 + (s.readX rs2).setWidth 32).signExtend 64) s ∧
    WritesX (.subw rd rs1 rs2) 4 rd (((s.readX rs1).setWidth 32 - (s.readX rs2).setWidth 32).signExtend 64) s ∧
    WritesX (.sllw rd rs1 rs2) 4 rd
      ((BitVec.ofNat 32 ((s.readX rs1).toNat * 2 ^ ((s.readX rs2).toNat % 32))).signExtend 64) s ∧
    WritesX (.srlw rd rs1 rs2) 4 rd
      ((BitVec.ofNat 32 (((s.readX rs1).setWidth 32).toNat / 2 ^ ((s.readX rs2).toNat % 32))).signExtend 64) s ∧
    WritesX (.sraw rd rs1 rs2) 4 rd
      ((BitVec.ofInt 32 (((s.readX rs1).setWidth 32).toInt / 2 ^ ((s.readX rs2).toNat % 32))).signExtend 64) s

/-- R361 to R364, R369: the products, computed exactly and narrowed. -/
def Obligations.Products : Prop :=
  ∀ (s : State) (rd rs1 rs2 : BitVec 5),
    let a := s.readX rs1
    let b := s.readX rs2
    WritesX (.mul rd rs1 rs2) 4 rd (BitVec.ofInt 64 (a.toInt * b.toInt)) s ∧
    WritesX (.mulh rd rs1 rs2) 4 rd (BitVec.ofInt 64 (a.toInt * b.toInt / 2 ^ 64)) s ∧
    WritesX (.mulhsu rd rs1 rs2) 4 rd (BitVec.ofInt 64 (a.toInt * (b.toNat : Int) / 2 ^ 64)) s ∧
    WritesX (.mulhu rd rs1 rs2) 4 rd (BitVec.ofNat 64 (a.toNat * b.toNat / 2 ^ 64)) s ∧
    WritesX (.mulw rd rs1 rs2) 4 rd ((a.setWidth 32 * b.setWidth 32).signExtend 64) s

/-- R360, R365 to R368, R370 to R373: the quotients and remainders at 64 and 32 bits, with the corner results of the
table. -/
def Obligations.QuotientsAndRemainders : Prop :=
  (∀ (s : State) (rd rs1 rs2 : BitVec 5),
     let a := s.readX rs1
     let b := s.readX rs2
     WritesX (.div rd rs1 rs2) 4 rd
       (if b = 0 then 0xFFFFFFFFFFFFFFFF
         else if a = 0x8000000000000000 ∧ b = 0xFFFFFFFFFFFFFFFF then 0x8000000000000000
         else BitVec.ofInt 64 (a.toInt.tdiv b.toInt)) s ∧
     WritesX (.divu rd rs1 rs2) 4 rd
       (if b = 0 then 0xFFFFFFFFFFFFFFFF else BitVec.ofNat 64 (a.toNat / b.toNat)) s ∧
     WritesX (.rem rd rs1 rs2) 4 rd
       (if b = 0 then a else if a = 0x8000000000000000 ∧ b = 0xFFFFFFFFFFFFFFFF then 0
         else BitVec.ofInt 64 (a.toInt.tmod b.toInt)) s ∧
     WritesX (.remu rd rs1 rs2) 4 rd (if b = 0 then a else BitVec.ofNat 64 (a.toNat % b.toNat)) s) ∧
  ∀ (s : State) (rd rs1 rs2 : BitVec 5),
    let a : BitVec 32 := (s.readX rs1).setWidth 32
    let b : BitVec 32 := (s.readX rs2).setWidth 32
    WritesX (.divw rd rs1 rs2) 4 rd
      (if b = 0 then 0xFFFFFFFFFFFFFFFF
        else if a = 0x80000000 ∧ b = 0xFFFFFFFF then 0xFFFFFFFF80000000
        else (BitVec.ofInt 32 (a.toInt.tdiv b.toInt)).signExtend 64) s ∧
    WritesX (.divuw rd rs1 rs2) 4 rd
      (if b = 0 then 0xFFFFFFFFFFFFFFFF else (BitVec.ofNat 32 (a.toNat / b.toNat)).signExtend 64) s ∧
    WritesX (.remw rd rs1 rs2) 4 rd
      (if b = 0 then a.signExtend 64 else if a = 0x80000000 ∧ b = 0xFFFFFFFF then 0
        else (BitVec.ofInt 32 (a.toInt.tmod b.toInt)).signExtend 64) s ∧
    WritesX (.remuw rd rs1 rs2) 4 rd
      (if b = 0 then a.signExtend 64 else (BitVec.ofNat 32 (a.toNat % b.toNat)).signExtend 64) s

/-! ### Control transfer -/

/-- R321 to R328, R440, R462 to R464, R469, R472: a jump writes the address after itself and goes to its target (`jalr`
clears bit 0 of it); a branch goes to its target if its comparison holds and to the next instruction otherwise; nothing else
changes. The compressed forms do the same at length 2. -/
def Obligations.JumpsAndBranches : Prop :=
  (∀ (s : State) (rd rs1 : BitVec 5) (offset : BitVec 21) (imm : BitVec 12),
     JumpsTo (.jal rd offset) rd (s.hart.pc + 4) (s.hart.pc + offset.signExtend 64) s ∧
     JumpsTo (.jalr rd rs1 imm) rd (s.hart.pc + 4) ((s.readX rs1 + imm.signExtend 64) &&& ~~~1) s) ∧
  (∀ (s : State) (rs1 rs2 : BitVec 5) (offset : BitVec 13),
     let a := s.readX rs1
     let b := s.readX rs2
     let target := s.hart.pc + offset.signExtend 64
     let after := s.hart.pc + 4
     GoesTo (.beq rs1 rs2 offset) (if a = b then target else after) s ∧
     GoesTo (.bne rs1 rs2 offset) (if a ≠ b then target else after) s ∧
     GoesTo (.blt rs1 rs2 offset) (if a.toInt < b.toInt then target else after) s ∧
     GoesTo (.bge rs1 rs2 offset) (if a.toInt ≥ b.toInt then target else after) s ∧
     GoesTo (.bltu rs1 rs2 offset) (if a.toNat < b.toNat then target else after) s ∧
     GoesTo (.bgeu rs1 rs2 offset) (if a.toNat ≥ b.toNat then target else after) s) ∧
  ∀ (s : State) (rs1 : BitVec 5) (p : BitVec 3) (offset : BitVec 9) (jump : BitVec 12),
    GoesTo (.cJ jump) (s.hart.pc + jump.signExtend 64) s ∧
    GoesTo (.cBeqz p offset)
      (if s.readX (primed p) = 0 then s.hart.pc + offset.signExtend 64 else s.hart.pc + 2) s ∧
    GoesTo (.cBnez p offset)
      (if s.readX (primed p) ≠ 0 then s.hart.pc + offset.signExtend 64 else s.hart.pc + 2) s ∧
    GoesTo (.cJr rs1) (s.readX rs1 &&& ~~~1) s ∧
    JumpsTo (.cJalr rs1) 1 (s.hart.pc + 2) (s.readX rs1 &&& ~~~1) s

/-! ### Loads, stores and atomics -/

/-- R341 to R347: each load writes the extended value of the bytes at its effective address, aligned or not, and
changes nothing else; the pc advances by the length of the instruction, whatever it is (R203). -/
def Obligations.Loads : Prop :=
  ∀ (s : State) (rd rs1 : BitVec 5) (imm : BitVec 12),
    let ea := effectiveAddress rs1 (sext imm) s
    let value := Memory.readLE s.mem ea.toNat
    (Answered s ea 1 → WritesX (.lb rd rs1 imm) s.len.bytes rd (((value 1).setWidth 8).signExtend 64) s ∧
      WritesX (.lbu rd rs1 imm) s.len.bytes rd (value 1) s) ∧
    (Answered s ea 2 → WritesX (.lh rd rs1 imm) s.len.bytes rd (((value 2).setWidth 16).signExtend 64) s ∧
      WritesX (.lhu rd rs1 imm) s.len.bytes rd (value 2) s) ∧
    (Answered s ea 4 → WritesX (.lw rd rs1 imm) s.len.bytes rd (((value 4).setWidth 32).signExtend 64) s ∧
      WritesX (.lwu rd rs1 imm) s.len.bytes rd (value 4) s) ∧
    (Answered s ea 8 → WritesX (.ld rd rs1 imm) s.len.bytes rd (value 8) s)

/-- R348 to R351: each store writes the low bytes of its register at its effective address, aligned or not, and
changes nothing else; the pc advances by the length of the instruction, whatever it is (R203). -/
def Obligations.Stores : Prop :=
  ∀ (s : State) (rs1 rs2 : BitVec 5) (imm : BitVec 12), Memory.wf s.mem = true →
    let ea := effectiveAddress rs1 (sext imm) s
    (Answered s ea 1 → StoresTo (.sb rs1 rs2 imm) s.len.bytes 1 ea (s.readX rs2) s) ∧
    (Answered s ea 2 → StoresTo (.sh rs1 rs2 imm) s.len.bytes 2 ea (s.readX rs2) s) ∧
    (Answered s ea 4 → StoresTo (.sw rs1 rs2 imm) s.len.bytes 4 ea (s.readX rs2) s) ∧
    (Answered s ea 8 → StoresTo (.sd rs1 rs2 imm) s.len.bytes 8 ea (s.readX rs2) s)

/-- R145, R381, R382, R392, R393, R404: load-reserved is an aligned load, store-conditional an aligned store that
always succeeds and writes 0; the ordering bits do nothing; the pc advances by the length of the instruction (R203). -/
def Obligations.LoadReservedStoreConditional : Prop :=
  ∀ (s : State) (rd rs1 rs2 : BitVec 5) (aq rl : BitVec 1), Memory.wf s.mem = true →
    let a := s.readX rs1
    (a.toNat % 4 = 0 → Answered s a 4 →
      WritesX (.lrW rd rs1 aq rl) s.len.bytes rd (((Memory.readLE s.mem a.toNat 4).setWidth 32).signExtend 64) s ∧
      Exchanges (.scW rd rs1 rs2 aq rl) 4 a (s.readX rs2) rd 0 s) ∧
    (a.toNat % 8 = 0 → Answered s a 8 →
      WritesX (.lrD rd rs1 aq rl) s.len.bytes rd (Memory.readLE s.mem a.toNat 8) s ∧
      Exchanges (.scD rd rs1 rs2 aq rl) 8 a (s.readX rs2) rd 0 s)

/-- R380, R383 to R391, R394 to R402: the AMOs store the operation of the old value and the register's, and return the old
value: on words, sign-extended, and on doublewords; the pc advances by the length of the instruction (R203). -/
def Obligations.AtomicOperations : Prop :=
  (∀ (s : State) (rd rs1 rs2 : BitVec 5) (aq rl : BitVec 1), Memory.wf s.mem = true →
     (s.readX rs1).toNat % 4 = 0 → Answered s (s.readX rs1) 4 →
     let old : BitVec 32 := (Memory.readLE s.mem (s.readX rs1).toNat 4).setWidth 32
     let v : BitVec 32 := (s.readX rs2).setWidth 32
     let does := fun (i : Instr) (new : BitVec 32) =>
       Exchanges i 4 (s.readX rs1) (new.setWidth 64) rd (old.signExtend 64) s
     does (.amoswapW rd rs1 rs2 aq rl) v ∧ does (.amoaddW rd rs1 rs2 aq rl) (old + v) ∧
     does (.amoxorW rd rs1 rs2 aq rl) (old ^^^ v) ∧ does (.amoandW rd rs1 rs2 aq rl) (old &&& v) ∧
     does (.amoorW rd rs1 rs2 aq rl) (old ||| v) ∧
     does (.amominW rd rs1 rs2 aq rl) (if old.toInt ≤ v.toInt then old else v) ∧
     does (.amomaxW rd rs1 rs2 aq rl) (if old.toInt ≥ v.toInt then old else v) ∧
     does (.amominuW rd rs1 rs2 aq rl) (if old.toNat ≤ v.toNat then old else v) ∧
     does (.amomaxuW rd rs1 rs2 aq rl) (if old.toNat ≥ v.toNat then old else v)) ∧
  ∀ (s : State) (rd rs1 rs2 : BitVec 5) (aq rl : BitVec 1), Memory.wf s.mem = true →
    (s.readX rs1).toNat % 8 = 0 → Answered s (s.readX rs1) 8 →
    let old := Memory.readLE s.mem (s.readX rs1).toNat 8
    let v := s.readX rs2
    let does := fun (i : Instr) (new : Word) => Exchanges i 8 (s.readX rs1) new rd old s
    does (.amoswapD rd rs1 rs2 aq rl) v ∧ does (.amoaddD rd rs1 rs2 aq rl) (old + v) ∧
    does (.amoxorD rd rs1 rs2 aq rl) (old ^^^ v) ∧ does (.amoandD rd rs1 rs2 aq rl) (old &&& v) ∧
    does (.amoorD rd rs1 rs2 aq rl) (old ||| v) ∧
    does (.amominD rd rs1 rs2 aq rl) (if old.toInt ≤ v.toInt then old else v) ∧
    does (.amomaxD rd rs1 rs2 aq rl) (if old.toInt ≥ v.toInt then old else v) ∧
    does (.amominuD rd rs1 rs2 aq rl) (if old.toNat ≤ v.toNat then old else v) ∧
    does (.amomaxuD rd rs1 rs2 aq rl) (if old.toNat ≥ v.toNat then old else v)

/-- R106: a misaligned atomic raises its misaligned exception with the address, before any translation: cause 4 for
load-reserved, cause 6 for the others. -/
def Obligations.MisalignedAtomicsTrap : Prop :=
  ∀ (s : State) (i : Instr) (rd rs1 rs2 : BitVec 5) (aq rl : BitVec 1),
    ((s.readX rs1).toNat % 4 ≠ 0 → HandlerInstalled 4 s.hart → i = .lrW rd rs1 aq rl → Raises i 4 (s.readX rs1) s) ∧
    ((s.readX rs1).toNat % 8 ≠ 0 → HandlerInstalled 4 s.hart → i = .lrD rd rs1 aq rl → Raises i 4 (s.readX rs1) s) ∧
    ((s.readX rs1).toNat % 4 ≠ 0 → HandlerInstalled 6 s.hart →
      i ∈ [.scW rd rs1 rs2 aq rl, .amoswapW rd rs1 rs2 aq rl, .amoaddW rd rs1 rs2 aq rl, .amoxorW rd rs1 rs2 aq rl,
        .amoandW rd rs1 rs2 aq rl, .amoorW rd rs1 rs2 aq rl, .amominW rd rs1 rs2 aq rl, .amomaxW rd rs1 rs2 aq rl,
        .amominuW rd rs1 rs2 aq rl, .amomaxuW rd rs1 rs2 aq rl] → Raises i 6 (s.readX rs1) s) ∧
    ((s.readX rs1).toNat % 8 ≠ 0 → HandlerInstalled 6 s.hart →
      i ∈ [.scD rd rs1 rs2 aq rl, .amoswapD rd rs1 rs2 aq rl, .amoaddD rd rs1 rs2 aq rl, .amoxorD rd rs1 rs2 aq rl,
        .amoandD rd rs1 rs2 aq rl, .amoorD rd rs1 rs2 aq rl, .amominD rd rs1 rs2 aq rl, .amomaxD rd rs1 rs2 aq rl,
        .amominuD rd rs1 rs2 aq rl, .amomaxuD rd rs1 rs2 aq rl] → Raises i 6 (s.readX rs1) s)

/-! ### Compressed instructions -/

/-- R440, R441, R448 to R461, R470, R473: the compressed computations, at length 2 (`c.slli` is stated with the
semihosting toggle). -/
def Obligations.CompressedComputations : Prop :=
  ∀ (s : State) (rd rs2 : BitVec 5) (p q : BitVec 3) (imm : BitVec 6) (uimm nzimm : BitVec 10) (upper : BitVec 18),
    let x := fun k : BitVec 3 => s.readX (primed k)
    WritesX (.cAddi4spn p uimm) 2 (primed p) (s.readX 2 + uimm.setWidth 64) s ∧
    WritesX (.cAddi rd imm) 2 rd (s.readX rd + imm.signExtend 64) s ∧
    WritesX (.cAddiw rd imm) 2 rd (((s.readX rd).setWidth 32 + imm.signExtend 32).signExtend 64) s ∧
    WritesX (.cLi rd imm) 2 rd (imm.signExtend 64) s ∧
    WritesX (.cAddi16sp nzimm) 2 2 (s.readX 2 + nzimm.signExtend 64) s ∧
    WritesX (.cLui rd upper) 2 rd (upper.signExtend 64) s ∧
    WritesX (.cSrli p imm) 2 (primed p) (BitVec.ofNat 64 ((x p).toNat / 2 ^ imm.toNat)) s ∧
    WritesX (.cSrai p imm) 2 (primed p) (BitVec.ofInt 64 ((x p).toInt / 2 ^ imm.toNat)) s ∧
    WritesX (.cAndi p imm) 2 (primed p) (x p &&& imm.signExtend 64) s ∧
    WritesX (.cSub p q) 2 (primed p) (x p - x q) s ∧
    WritesX (.cXor p q) 2 (primed p) (x p ^^^ x q) s ∧
    WritesX (.cOr p q) 2 (primed p) (x p ||| x q) s ∧
    WritesX (.cAnd p q) 2 (primed p) (x p &&& x q) s ∧
    WritesX (.cSubw p q) 2 (primed p) (((x p).setWidth 32 - (x q).setWidth 32).signExtend 64) s ∧
    WritesX (.cAddw p q) 2 (primed p) (((x p).setWidth 32 + (x q).setWidth 32).signExtend 64) s ∧
    WritesX (.cMv rd rs2) 2 rd (s.readX rs2) s ∧
    WritesX (.cAdd rd rs2) 2 rd (s.readX rd + s.readX rs2) s

/-- R440, R443, R444, R446, R447, R467, R468, R475, R476: the compressed loads and stores of GPRs. -/
def Obligations.CompressedLoadsAndStores : Prop :=
  ∀ (s : State) (rd rs2 : BitVec 5) (p q : BitVec 3) (u7 : BitVec 7) (u8 : BitVec 8) (u9 : BitVec 9),
    Memory.wf s.mem = true →
    let at7 := effectiveAddress (primed q) (zext u7) s
    let at8 := effectiveAddress (primed q) (zext u8) s
    let sp8 := effectiveAddress 2 (zext u8) s
    let sp9 := effectiveAddress 2 (zext u9) s
    let word := fun a : Word => ((Memory.readLE s.mem a.toNat 4).setWidth 32).signExtend 64
    let double := fun a : Word => Memory.readLE s.mem a.toNat 8
    (Answered s at7 4 → WritesX (.cLw p q u7) 2 (primed p) (word at7) s ∧
      StoresTo (.cSw p q u7) 2 4 at7 (s.readX (primed p)) s) ∧
    (Answered s at8 8 → WritesX (.cLd p q u8) 2 (primed p) (double at8) s ∧
      StoresTo (.cSd p q u8) 2 8 at8 (s.readX (primed p)) s) ∧
    (Answered s sp8 4 → WritesX (.cLwsp rd u8) 2 rd (word sp8) s ∧
      StoresTo (.cSwsp rs2 u8) 2 4 sp8 (s.readX rs2) s) ∧
    (Answered s sp9 8 → WritesX (.cLdsp rd u9) 2 rd (double sp9) s ∧
      StoresTo (.cSdsp rs2 u9) 2 8 sp9 (s.readX rs2) s)

/-! ### Floating point and the instructions left unsupported -/

/-- R490, R495 to R499: with `FP_MEMORY_OPS` implemented, the moves between register files copy bits, and a 32-bit value is
NaN-boxed in an FPR, and the pc advances by the length of the instruction (R203); with `FP_MEMORY_OPS = stub`, the twelve FP
loads, stores and moves raise IllegalInstruction and change nothing else. -/
def Obligations.FpMovesAndStubs : Prop :=
  (∀ (s : State) (rd rs1 : BitVec 5), s.cfg.fpMemoryOps = .implemented →
     WritesX (.fmvXW rd rs1) s.len.bytes rd (((s.readF rs1).setWidth 32).signExtend 64) s ∧
     WritesF (.fmvWX rd rs1) s.len.bytes rd (0xFFFFFFFF00000000 ||| ((s.readX rs1).setWidth 32).setWidth 64) s ∧
     WritesX (.fmvXD rd rs1) s.len.bytes rd (s.readF rs1) s ∧
     WritesF (.fmvDX rd rs1) s.len.bytes rd (s.readX rs1) s) ∧
  ∀ (s : State) (i : Instr), s.cfg.fpMemoryOps = .stub → HandlerInstalled 2 s.hart →
    i.op ∈ [.flw, .fld, .fsw, .fsd, .fmvXW, .fmvWX, .fmvXD, .fmvDX, .cFld, .cFsd, .cFldsp, .cFsdsp] →
    RaisesIllegal i s

/-- R442, R445, R466, R474, R491 to R494, R499: the FP loads and stores, the compressed ones among them; the pc advances by the
length of the instruction (R203), which is 2 for the compressed ones (R440). -/
def Obligations.FpLoadsAndStores : Prop :=
  ∀ (s : State) (rd rs1 rs2 : BitVec 5) (imm : BitVec 12) (p q : BitVec 3) (u8 : BitVec 8) (u9 : BitVec 9),
    s.cfg.fpMemoryOps = .implemented → Memory.wf s.mem = true →
    let ea := effectiveAddress rs1 (sext imm) s
    let at8 := effectiveAddress (primed q) (zext u8) s
    let sp9 := effectiveAddress 2 (zext u9) s
    let double := fun a : Word => Memory.readLE s.mem a.toNat 8
    (Answered s ea 4 →
      WritesF (.flw rd rs1 imm) s.len.bytes rd (0xFFFFFFFF00000000 ||| Memory.readLE s.mem ea.toNat 4) s ∧
      StoresTo (.fsw rs1 rs2 imm) s.len.bytes 4 ea (s.readF rs2) s) ∧
    (Answered s ea 8 → WritesF (.fld rd rs1 imm) s.len.bytes rd (double ea) s ∧
      StoresTo (.fsd rs1 rs2 imm) s.len.bytes 8 ea (s.readF rs2) s) ∧
    (Answered s at8 8 → WritesF (.cFld p q u8) 2 (primed p) (double at8) s ∧
      StoresTo (.cFsd p q u8) 2 8 at8 (s.readF (primed p)) s) ∧
    (Answered s sp9 8 → WritesF (.cFldsp rd u9) 2 rd (double sp9) s ∧
      StoresTo (.cFsdsp rs2 u9) 2 8 sp9 (s.readF rs2) s)

/-- R510 to R564, R600 to R628: every FP arithmetic, compare, classify, convert and fused instruction, and every
hypervisor, cache-management and vector instruction, raises IllegalInstruction in every mode, whatever its operands,
and changes nothing else. -/
def Obligations.UnsupportedInstructionsRaiseIllegal : Prop :=
  (∀ (s : State) (i : Instr), HandlerInstalled 2 s.hart →
     i.op ∈ [.faddS, .fsubS, .fmulS, .fdivS, .fsqrtS, .fsgnjS, .fsgnjnS, .fsgnjxS, .fminS, .fmaxS, .feqS, .fltS, .fleS,
       .fclassS, .fcvtWS, .fcvtWuS, .fcvtLS, .fcvtLuS, .fcvtSW, .fcvtSWu, .fcvtSL, .fcvtSLu, .faddD, .fsubD, .fmulD,
       .fdivD, .fsqrtD, .fsgnjD, .fsgnjnD, .fsgnjxD, .fminD, .fmaxD, .feqD, .fltD, .fleD, .fclassD, .fcvtWD,
       .fcvtWuD, .fcvtLD, .fcvtLuD, .fcvtDW, .fcvtDWu, .fcvtDL, .fcvtDLu, .fcvtSD, .fcvtDS, .fmaddS, .fmsubS,
       .fnmsubS, .fnmaddS, .fmaddD, .fmsubD, .fnmsubD, .fnmaddD] →
     RaisesIllegal i s) ∧
  ∀ (s : State) (i : Instr), HandlerInstalled 2 s.hart →
    i.op ∈ [.hfenceVvma, .hfenceGvma, .hlvB, .hlvBu, .hlvH, .hlvHu, .hlvxHu, .hlvW, .hlvWu, .hlvxWu, .hlvD, .hsvB, .hsvH,
      .hsvW, .hsvD, .cboInval, .cboClean, .cboFlush, .cboZero, .vectorOp, .vectorLoadW8, .vectorLoadW16,
      .vectorLoadW32, .vectorLoadW64, .vectorStoreW8, .vectorStoreW16, .vectorStoreW32, .vectorStoreW64] →
    RaisesIllegal i s

/-! ### The whole machine -/

/-- R68, R668, R701, R702, R705 to R708: what reset leaves, for any parameters and hart, where the spec gives a value: each
storage register the value of its row, and under the default table the values of R702; the harts of the Machine are numbered
in order and each is in its reset state; memory is what the environment placed. -/
def Obligations.ResetLeavesTheSpecsValues : Prop :=
  (∀ (cfg : Config) (hartid : Word),
     let h := Hart.reset cfg hartid
     h.pc = cfg.resetPc ∧ h.priv = .machine ∧ h.sleeping = false ∧ h.semihosting = false ∧ h.tlb = [] ∧
     h.hartid = hartid ∧
     (∀ s : State, s.hart = h → s.readX 0 = 0 ∧ s.readX 10 = hartid ∧ s.readX 11 = cfg.dtbAddr) ∧
     h.csr.mipLatch = 0 ∧
     (∀ row a, csrFind cfg.csrTable a = some row → row.kind = .storage →
       h.csr.get (.ofAddr a) = row.reset.eval hartid) ∧
     (cfg.csrTable = csrTable → ∀ r, h.csr.get r =
       if r = .mstatus then 0xA00000000 else if r = .misa then 0x800000000014112D
       else if r = .mhartid then hartid else 0)) ∧
  ∀ (cfg : Config) (mem : List Host.Cell), cfg.wf = true →
    let s := State.resetWith cfg mem
    s.hart :: s.others = (List.range cfg.numHarts).map (fun n => Hart.reset cfg (BitVec.ofNat 64 n)) ∧
    s.mem = mem ∧ s.cfg = cfg

/-- R68, R700, R703, R707: a later reset of the current hart gives it its reset state again, under the parameters of the
machine; it keeps its identity, and memory, the other harts and everything else stay. That the environment resets one hart
at a boundary, and that the interrupt lines keep their values, is the model's form (log entry 18). -/
def Obligations.LaterReset : Prop :=
  ∀ s : State,
    applyEvent s .reset = { s with hart := { Hart.reset s.cfg s.hart.hartid with lines := s.hart.lines } } ∧
    (∀ later, s.schedule = [.reset] :: later →
      environment s =
        { s with schedule := later, hart := { Hart.reset s.cfg s.hart.hartid with lines := s.hart.lines } }) ∧
    (applyEvent s .reset).readX 10 = s.hart.hartid ∧ (applyEvent s .reset).readX 11 = s.cfg.dtbAddr ∧
    (∀ a, (applyEvent s .reset).readByte a = s.readByte a) ∧
    ∀ row a, csrFind s.cfg.csrTable a = some row → row.kind = .storage →
      csrValue a (applyEvent s .reset) = some (row.reset.eval s.hart.hartid, applyEvent s .reset)

/-- The invariant holds at reset, for the default `CSR_TABLE`, any instruction table that the registry accepts, any other
acceptable parameters and any initial memory in canonical form; and so for the default parameters (those of log entry 3 are only
used to be acceptable). -/
def Obligations.ResetMeetsTheInvariant : Prop :=
  (∀ (cfg : Config) (mem : List Host.Cell), cfg.wf = true → Registry.accepts cfg.isaTable = true →
    cfg.csrTable = csrTable → Memory.wf mem = true → (State.resetWith cfg mem).Inv) ∧
  State.reset.Inv

/-- R31, R41, R52 to R59, R62: every step keeps the invariant: x0 holds nothing, the pc and the saved pcs are even, the CSR
bits that cannot be written stay as reset leaves them under the default `CSR_TABLE`, and memory keeps its canonical form. The
instruction table is one that the registry accepts, as that of every loaded machine is (R185); what it accepts is in part the
model's choice (log entries 20 and 23). It holds through every move of the environment (log entries 4, 10 and 18). -/
def Obligations.StepKeepsTheInvariant : Prop :=
  ∀ s t : State, s.Inv → step s = .next t → t.Inv

/-- R661: the only instructions that lower the privilege are `mret` and `sret`. -/
def Obligations.OnlyReturnsLowerPrivilege : Prop :=
  ∀ (i : Instr) (s t : State), exec i s = .next t → t.hart.priv.code < s.hart.priv.code → i = .mret ∨ i = .sret

/-- R60, R660, R662: under the default `CSR_TABLE`, an instruction that runs in U-mode and stays there changes no CSR but
`fcsr`. -/
def Obligations.UserModeChangesOnlyFcsr : Prop :=
  ∀ (i : Instr) (s t : State), s.cfg.csrTable = csrTable → s.hart.priv = .user → exec i s = .next t → t.hart.priv = .user →
    t.hart.csr = { s.hart.csr with fcsr := t.hart.csr.fcsr } ∧ t.hart.sleeping = (s.hart.sleeping || decide (i = .wfi))

/-- R9, R79, R669: no instruction changes another hart, an input, the identity of its hart or the parameters. -/
def Obligations.InstructionsTouchOnlyTheirHart : Prop :=
  ∀ (i : Instr) (s t : State), exec i s = .next t →
    t.others = s.others ∧ t.hart.hartid = s.hart.hartid ∧ t.hart.lines = s.hart.lines ∧ t.mtime = s.mtime ∧
    t.schedule = s.schedule ∧ t.cfg = s.cfg
end

