-- ==== Sys2Proof/Laws/State.lean ====
section
/-! SUPPORT. One lemma for each field of the state after each update of Ops.lean, so that no proof unfolds a record update. -/

namespace Sys2Proof.Machine

/-! ### `withX` -/

@[simp] theorem withX_x (s : State) (v : Vector Word 32) : (s.withX v).hart.x = v := rfl
@[simp] theorem withX_f (s : State) (v : Vector Word 32) : (s.withX v).hart.f = s.hart.f := rfl
@[simp] theorem withX_pc (s : State) (v : Vector Word 32) : (s.withX v).hart.pc = s.hart.pc := rfl
@[simp] theorem withX_priv (s : State) (v : Vector Word 32) : (s.withX v).hart.priv = s.hart.priv := rfl
@[simp] theorem withX_sleeping (s : State) (v : Vector Word 32) : (s.withX v).hart.sleeping = s.hart.sleeping := rfl
@[simp] theorem withX_semihosting (s : State) (v : Vector Word 32) : (s.withX v).hart.semihosting = s.hart.semihosting := rfl
@[simp] theorem withX_csr (s : State) (v : Vector Word 32) : (s.withX v).hart.csr = s.hart.csr := rfl
@[simp] theorem withX_tlb (s : State) (v : Vector Word 32) : (s.withX v).hart.tlb = s.hart.tlb := rfl
@[simp] theorem withX_hartid (s : State) (v : Vector Word 32) : (s.withX v).hart.hartid = s.hart.hartid := rfl
@[simp] theorem withX_lines (s : State) (v : Vector Word 32) : (s.withX v).hart.lines = s.hart.lines := rfl
@[simp] theorem withX_others (s : State) (v : Vector Word 32) : (s.withX v).others = s.others := rfl
@[simp] theorem withX_mem (s : State) (v : Vector Word 32) : (s.withX v).mem = s.mem := rfl
@[simp] theorem withX_mtime (s : State) (v : Vector Word 32) : (s.withX v).mtime = s.mtime := rfl
@[simp] theorem withX_len (s : State) (v : Vector Word 32) : (s.withX v).len = s.len := rfl
@[simp] theorem withX_draws (s : State) (v : Vector Word 32) : (s.withX v).draws = s.draws := rfl
@[simp] theorem withX_schedule (s : State) (v : Vector Word 32) : (s.withX v).schedule = s.schedule := rfl
@[simp] theorem withX_busLog (s : State) (v : Vector Word 32) : (s.withX v).busLog = s.busLog := rfl
@[simp] theorem withX_cfg (s : State) (v : Vector Word 32) : (s.withX v).cfg = s.cfg := rfl

/-! ### `withF` -/

@[simp] theorem withF_x (s : State) (v : Vector Word 32) : (s.withF v).hart.x = s.hart.x := rfl
@[simp] theorem withF_f (s : State) (v : Vector Word 32) : (s.withF v).hart.f = v := rfl
@[simp] theorem withF_pc (s : State) (v : Vector Word 32) : (s.withF v).hart.pc = s.hart.pc := rfl
@[simp] theorem withF_priv (s : State) (v : Vector Word 32) : (s.withF v).hart.priv = s.hart.priv := rfl
@[simp] theorem withF_sleeping (s : State) (v : Vector Word 32) : (s.withF v).hart.sleeping = s.hart.sleeping := rfl
@[simp] theorem withF_semihosting (s : State) (v : Vector Word 32) : (s.withF v).hart.semihosting = s.hart.semihosting := rfl
@[simp] theorem withF_csr (s : State) (v : Vector Word 32) : (s.withF v).hart.csr = s.hart.csr := rfl
@[simp] theorem withF_tlb (s : State) (v : Vector Word 32) : (s.withF v).hart.tlb = s.hart.tlb := rfl
@[simp] theorem withF_hartid (s : State) (v : Vector Word 32) : (s.withF v).hart.hartid = s.hart.hartid := rfl
@[simp] theorem withF_lines (s : State) (v : Vector Word 32) : (s.withF v).hart.lines = s.hart.lines := rfl
@[simp] theorem withF_others (s : State) (v : Vector Word 32) : (s.withF v).others = s.others := rfl
@[simp] theorem withF_mem (s : State) (v : Vector Word 32) : (s.withF v).mem = s.mem := rfl
@[simp] theorem withF_mtime (s : State) (v : Vector Word 32) : (s.withF v).mtime = s.mtime := rfl
@[simp] theorem withF_len (s : State) (v : Vector Word 32) : (s.withF v).len = s.len := rfl
@[simp] theorem withF_draws (s : State) (v : Vector Word 32) : (s.withF v).draws = s.draws := rfl
@[simp] theorem withF_schedule (s : State) (v : Vector Word 32) : (s.withF v).schedule = s.schedule := rfl
@[simp] theorem withF_busLog (s : State) (v : Vector Word 32) : (s.withF v).busLog = s.busLog := rfl
@[simp] theorem withF_cfg (s : State) (v : Vector Word 32) : (s.withF v).cfg = s.cfg := rfl

/-! ### `withPc` -/

@[simp] theorem withPc_x (s : State) (v : Word) : (s.withPc v).hart.x = s.hart.x := rfl
@[simp] theorem withPc_f (s : State) (v : Word) : (s.withPc v).hart.f = s.hart.f := rfl
@[simp] theorem withPc_pc (s : State) (v : Word) : (s.withPc v).hart.pc = v := rfl
@[simp] theorem withPc_priv (s : State) (v : Word) : (s.withPc v).hart.priv = s.hart.priv := rfl
@[simp] theorem withPc_sleeping (s : State) (v : Word) : (s.withPc v).hart.sleeping = s.hart.sleeping := rfl
@[simp] theorem withPc_semihosting (s : State) (v : Word) : (s.withPc v).hart.semihosting = s.hart.semihosting := rfl
@[simp] theorem withPc_csr (s : State) (v : Word) : (s.withPc v).hart.csr = s.hart.csr := rfl
@[simp] theorem withPc_tlb (s : State) (v : Word) : (s.withPc v).hart.tlb = s.hart.tlb := rfl
@[simp] theorem withPc_hartid (s : State) (v : Word) : (s.withPc v).hart.hartid = s.hart.hartid := rfl
@[simp] theorem withPc_lines (s : State) (v : Word) : (s.withPc v).hart.lines = s.hart.lines := rfl
@[simp] theorem withPc_others (s : State) (v : Word) : (s.withPc v).others = s.others := rfl
@[simp] theorem withPc_mem (s : State) (v : Word) : (s.withPc v).mem = s.mem := rfl
@[simp] theorem withPc_mtime (s : State) (v : Word) : (s.withPc v).mtime = s.mtime := rfl
@[simp] theorem withPc_len (s : State) (v : Word) : (s.withPc v).len = s.len := rfl
@[simp] theorem withPc_draws (s : State) (v : Word) : (s.withPc v).draws = s.draws := rfl
@[simp] theorem withPc_schedule (s : State) (v : Word) : (s.withPc v).schedule = s.schedule := rfl
@[simp] theorem withPc_busLog (s : State) (v : Word) : (s.withPc v).busLog = s.busLog := rfl
@[simp] theorem withPc_cfg (s : State) (v : Word) : (s.withPc v).cfg = s.cfg := rfl

/-! ### `withPriv` -/

@[simp] theorem withPriv_x (s : State) (v : Priv) : (s.withPriv v).hart.x = s.hart.x := rfl
@[simp] theorem withPriv_f (s : State) (v : Priv) : (s.withPriv v).hart.f = s.hart.f := rfl
@[simp] theorem withPriv_pc (s : State) (v : Priv) : (s.withPriv v).hart.pc = s.hart.pc := rfl
@[simp] theorem withPriv_priv (s : State) (v : Priv) : (s.withPriv v).hart.priv = v := rfl
@[simp] theorem withPriv_sleeping (s : State) (v : Priv) : (s.withPriv v).hart.sleeping = s.hart.sleeping := rfl
@[simp] theorem withPriv_semihosting (s : State) (v : Priv) : (s.withPriv v).hart.semihosting = s.hart.semihosting := rfl
@[simp] theorem withPriv_csr (s : State) (v : Priv) : (s.withPriv v).hart.csr = s.hart.csr := rfl
@[simp] theorem withPriv_tlb (s : State) (v : Priv) : (s.withPriv v).hart.tlb = s.hart.tlb := rfl
@[simp] theorem withPriv_hartid (s : State) (v : Priv) : (s.withPriv v).hart.hartid = s.hart.hartid := rfl
@[simp] theorem withPriv_lines (s : State) (v : Priv) : (s.withPriv v).hart.lines = s.hart.lines := rfl
@[simp] theorem withPriv_others (s : State) (v : Priv) : (s.withPriv v).others = s.others := rfl
@[simp] theorem withPriv_mem (s : State) (v : Priv) : (s.withPriv v).mem = s.mem := rfl
@[simp] theorem withPriv_mtime (s : State) (v : Priv) : (s.withPriv v).mtime = s.mtime := rfl
@[simp] theorem withPriv_len (s : State) (v : Priv) : (s.withPriv v).len = s.len := rfl
@[simp] theorem withPriv_draws (s : State) (v : Priv) : (s.withPriv v).draws = s.draws := rfl
@[simp] theorem withPriv_schedule (s : State) (v : Priv) : (s.withPriv v).schedule = s.schedule := rfl
@[simp] theorem withPriv_busLog (s : State) (v : Priv) : (s.withPriv v).busLog = s.busLog := rfl
@[simp] theorem withPriv_cfg (s : State) (v : Priv) : (s.withPriv v).cfg = s.cfg := rfl

/-! ### `withSleeping` -/

@[simp] theorem withSleeping_x (s : State) (v : Bool) : (s.withSleeping v).hart.x = s.hart.x := rfl
@[simp] theorem withSleeping_f (s : State) (v : Bool) : (s.withSleeping v).hart.f = s.hart.f := rfl
@[simp] theorem withSleeping_pc (s : State) (v : Bool) : (s.withSleeping v).hart.pc = s.hart.pc := rfl
@[simp] theorem withSleeping_priv (s : State) (v : Bool) : (s.withSleeping v).hart.priv = s.hart.priv := rfl
@[simp] theorem withSleeping_sleeping (s : State) (v : Bool) : (s.withSleeping v).hart.sleeping = v := rfl
@[simp] theorem withSleeping_semihosting (s : State) (v : Bool) : (s.withSleeping v).hart.semihosting = s.hart.semihosting := rfl
@[simp] theorem withSleeping_csr (s : State) (v : Bool) : (s.withSleeping v).hart.csr = s.hart.csr := rfl
@[simp] theorem withSleeping_tlb (s : State) (v : Bool) : (s.withSleeping v).hart.tlb = s.hart.tlb := rfl
@[simp] theorem withSleeping_hartid (s : State) (v : Bool) : (s.withSleeping v).hart.hartid = s.hart.hartid := rfl
@[simp] theorem withSleeping_lines (s : State) (v : Bool) : (s.withSleeping v).hart.lines = s.hart.lines := rfl
@[simp] theorem withSleeping_others (s : State) (v : Bool) : (s.withSleeping v).others = s.others := rfl
@[simp] theorem withSleeping_mem (s : State) (v : Bool) : (s.withSleeping v).mem = s.mem := rfl
@[simp] theorem withSleeping_mtime (s : State) (v : Bool) : (s.withSleeping v).mtime = s.mtime := rfl
@[simp] theorem withSleeping_len (s : State) (v : Bool) : (s.withSleeping v).len = s.len := rfl
@[simp] theorem withSleeping_draws (s : State) (v : Bool) : (s.withSleeping v).draws = s.draws := rfl
@[simp] theorem withSleeping_schedule (s : State) (v : Bool) : (s.withSleeping v).schedule = s.schedule := rfl
@[simp] theorem withSleeping_busLog (s : State) (v : Bool) : (s.withSleeping v).busLog = s.busLog := rfl
@[simp] theorem withSleeping_cfg (s : State) (v : Bool) : (s.withSleeping v).cfg = s.cfg := rfl

/-! ### `withSemihosting` -/

@[simp] theorem withSemihosting_x (s : State) (v : Bool) : (s.withSemihosting v).hart.x = s.hart.x := rfl
@[simp] theorem withSemihosting_f (s : State) (v : Bool) : (s.withSemihosting v).hart.f = s.hart.f := rfl
@[simp] theorem withSemihosting_pc (s : State) (v : Bool) : (s.withSemihosting v).hart.pc = s.hart.pc := rfl
@[simp] theorem withSemihosting_priv (s : State) (v : Bool) : (s.withSemihosting v).hart.priv = s.hart.priv := rfl
@[simp] theorem withSemihosting_sleeping (s : State) (v : Bool) : (s.withSemihosting v).hart.sleeping = s.hart.sleeping := rfl
@[simp] theorem withSemihosting_semihosting (s : State) (v : Bool) : (s.withSemihosting v).hart.semihosting = v := rfl
@[simp] theorem withSemihosting_csr (s : State) (v : Bool) : (s.withSemihosting v).hart.csr = s.hart.csr := rfl
@[simp] theorem withSemihosting_tlb (s : State) (v : Bool) : (s.withSemihosting v).hart.tlb = s.hart.tlb := rfl
@[simp] theorem withSemihosting_hartid (s : State) (v : Bool) : (s.withSemihosting v).hart.hartid = s.hart.hartid := rfl
@[simp] theorem withSemihosting_lines (s : State) (v : Bool) : (s.withSemihosting v).hart.lines = s.hart.lines := rfl
@[simp] theorem withSemihosting_others (s : State) (v : Bool) : (s.withSemihosting v).others = s.others := rfl
@[simp] theorem withSemihosting_mem (s : State) (v : Bool) : (s.withSemihosting v).mem = s.mem := rfl
@[simp] theorem withSemihosting_mtime (s : State) (v : Bool) : (s.withSemihosting v).mtime = s.mtime := rfl
@[simp] theorem withSemihosting_len (s : State) (v : Bool) : (s.withSemihosting v).len = s.len := rfl
@[simp] theorem withSemihosting_draws (s : State) (v : Bool) : (s.withSemihosting v).draws = s.draws := rfl
@[simp] theorem withSemihosting_schedule (s : State) (v : Bool) : (s.withSemihosting v).schedule = s.schedule := rfl
@[simp] theorem withSemihosting_busLog (s : State) (v : Bool) : (s.withSemihosting v).busLog = s.busLog := rfl
@[simp] theorem withSemihosting_cfg (s : State) (v : Bool) : (s.withSemihosting v).cfg = s.cfg := rfl

/-! ### `withCsr` -/

@[simp] theorem withCsr_x (s : State) (v : CsrFile) : (s.withCsr v).hart.x = s.hart.x := rfl
@[simp] theorem withCsr_f (s : State) (v : CsrFile) : (s.withCsr v).hart.f = s.hart.f := rfl
@[simp] theorem withCsr_pc (s : State) (v : CsrFile) : (s.withCsr v).hart.pc = s.hart.pc := rfl
@[simp] theorem withCsr_priv (s : State) (v : CsrFile) : (s.withCsr v).hart.priv = s.hart.priv := rfl
@[simp] theorem withCsr_sleeping (s : State) (v : CsrFile) : (s.withCsr v).hart.sleeping = s.hart.sleeping := rfl
@[simp] theorem withCsr_semihosting (s : State) (v : CsrFile) : (s.withCsr v).hart.semihosting = s.hart.semihosting := rfl
@[simp] theorem withCsr_csr (s : State) (v : CsrFile) : (s.withCsr v).hart.csr = v := rfl
@[simp] theorem withCsr_tlb (s : State) (v : CsrFile) : (s.withCsr v).hart.tlb = s.hart.tlb := rfl
@[simp] theorem withCsr_hartid (s : State) (v : CsrFile) : (s.withCsr v).hart.hartid = s.hart.hartid := rfl
@[simp] theorem withCsr_lines (s : State) (v : CsrFile) : (s.withCsr v).hart.lines = s.hart.lines := rfl
@[simp] theorem withCsr_others (s : State) (v : CsrFile) : (s.withCsr v).others = s.others := rfl
@[simp] theorem withCsr_mem (s : State) (v : CsrFile) : (s.withCsr v).mem = s.mem := rfl
@[simp] theorem withCsr_mtime (s : State) (v : CsrFile) : (s.withCsr v).mtime = s.mtime := rfl
@[simp] theorem withCsr_len (s : State) (v : CsrFile) : (s.withCsr v).len = s.len := rfl
@[simp] theorem withCsr_draws (s : State) (v : CsrFile) : (s.withCsr v).draws = s.draws := rfl
@[simp] theorem withCsr_schedule (s : State) (v : CsrFile) : (s.withCsr v).schedule = s.schedule := rfl
@[simp] theorem withCsr_busLog (s : State) (v : CsrFile) : (s.withCsr v).busLog = s.busLog := rfl
@[simp] theorem withCsr_cfg (s : State) (v : CsrFile) : (s.withCsr v).cfg = s.cfg := rfl

/-! ### `withTlb` -/

@[simp] theorem withTlb_x (s : State) (v : List TlbEntry) : (s.withTlb v).hart.x = s.hart.x := rfl
@[simp] theorem withTlb_f (s : State) (v : List TlbEntry) : (s.withTlb v).hart.f = s.hart.f := rfl
@[simp] theorem withTlb_pc (s : State) (v : List TlbEntry) : (s.withTlb v).hart.pc = s.hart.pc := rfl
@[simp] theorem withTlb_priv (s : State) (v : List TlbEntry) : (s.withTlb v).hart.priv = s.hart.priv := rfl
@[simp] theorem withTlb_sleeping (s : State) (v : List TlbEntry) : (s.withTlb v).hart.sleeping = s.hart.sleeping := rfl
@[simp] theorem withTlb_semihosting (s : State) (v : List TlbEntry) : (s.withTlb v).hart.semihosting = s.hart.semihosting := rfl
@[simp] theorem withTlb_csr (s : State) (v : List TlbEntry) : (s.withTlb v).hart.csr = s.hart.csr := rfl
@[simp] theorem withTlb_tlb (s : State) (v : List TlbEntry) : (s.withTlb v).hart.tlb = v := rfl
@[simp] theorem withTlb_hartid (s : State) (v : List TlbEntry) : (s.withTlb v).hart.hartid = s.hart.hartid := rfl
@[simp] theorem withTlb_lines (s : State) (v : List TlbEntry) : (s.withTlb v).hart.lines = s.hart.lines := rfl
@[simp] theorem withTlb_others (s : State) (v : List TlbEntry) : (s.withTlb v).others = s.others := rfl
@[simp] theorem withTlb_mem (s : State) (v : List TlbEntry) : (s.withTlb v).mem = s.mem := rfl
@[simp] theorem withTlb_mtime (s : State) (v : List TlbEntry) : (s.withTlb v).mtime = s.mtime := rfl
@[simp] theorem withTlb_len (s : State) (v : List TlbEntry) : (s.withTlb v).len = s.len := rfl
@[simp] theorem withTlb_draws (s : State) (v : List TlbEntry) : (s.withTlb v).draws = s.draws := rfl
@[simp] theorem withTlb_schedule (s : State) (v : List TlbEntry) : (s.withTlb v).schedule = s.schedule := rfl
@[simp] theorem withTlb_busLog (s : State) (v : List TlbEntry) : (s.withTlb v).busLog = s.busLog := rfl
@[simp] theorem withTlb_cfg (s : State) (v : List TlbEntry) : (s.withTlb v).cfg = s.cfg := rfl

/-! ### `withLines` -/

@[simp] theorem withLines_x (s : State) (v : IrqLines) : (s.withLines v).hart.x = s.hart.x := rfl
@[simp] theorem withLines_f (s : State) (v : IrqLines) : (s.withLines v).hart.f = s.hart.f := rfl
@[simp] theorem withLines_pc (s : State) (v : IrqLines) : (s.withLines v).hart.pc = s.hart.pc := rfl
@[simp] theorem withLines_priv (s : State) (v : IrqLines) : (s.withLines v).hart.priv = s.hart.priv := rfl
@[simp] theorem withLines_sleeping (s : State) (v : IrqLines) : (s.withLines v).hart.sleeping = s.hart.sleeping := rfl
@[simp] theorem withLines_semihosting (s : State) (v : IrqLines) : (s.withLines v).hart.semihosting = s.hart.semihosting := rfl
@[simp] theorem withLines_csr (s : State) (v : IrqLines) : (s.withLines v).hart.csr = s.hart.csr := rfl
@[simp] theorem withLines_tlb (s : State) (v : IrqLines) : (s.withLines v).hart.tlb = s.hart.tlb := rfl
@[simp] theorem withLines_hartid (s : State) (v : IrqLines) : (s.withLines v).hart.hartid = s.hart.hartid := rfl
@[simp] theorem withLines_lines (s : State) (v : IrqLines) : (s.withLines v).hart.lines = v := rfl
@[simp] theorem withLines_others (s : State) (v : IrqLines) : (s.withLines v).others = s.others := rfl
@[simp] theorem withLines_mem (s : State) (v : IrqLines) : (s.withLines v).mem = s.mem := rfl
@[simp] theorem withLines_mtime (s : State) (v : IrqLines) : (s.withLines v).mtime = s.mtime := rfl
@[simp] theorem withLines_len (s : State) (v : IrqLines) : (s.withLines v).len = s.len := rfl
@[simp] theorem withLines_draws (s : State) (v : IrqLines) : (s.withLines v).draws = s.draws := rfl
@[simp] theorem withLines_schedule (s : State) (v : IrqLines) : (s.withLines v).schedule = s.schedule := rfl
@[simp] theorem withLines_busLog (s : State) (v : IrqLines) : (s.withLines v).busLog = s.busLog := rfl
@[simp] theorem withLines_cfg (s : State) (v : IrqLines) : (s.withLines v).cfg = s.cfg := rfl

/-! ### `withOthers` -/

@[simp] theorem withOthers_x (s : State) (v : List Hart) : (s.withOthers v).hart.x = s.hart.x := rfl
@[simp] theorem withOthers_f (s : State) (v : List Hart) : (s.withOthers v).hart.f = s.hart.f := rfl
@[simp] theorem withOthers_pc (s : State) (v : List Hart) : (s.withOthers v).hart.pc = s.hart.pc := rfl
@[simp] theorem withOthers_priv (s : State) (v : List Hart) : (s.withOthers v).hart.priv = s.hart.priv := rfl
@[simp] theorem withOthers_sleeping (s : State) (v : List Hart) : (s.withOthers v).hart.sleeping = s.hart.sleeping := rfl
@[simp] theorem withOthers_semihosting (s : State) (v : List Hart) : (s.withOthers v).hart.semihosting = s.hart.semihosting := rfl
@[simp] theorem withOthers_csr (s : State) (v : List Hart) : (s.withOthers v).hart.csr = s.hart.csr := rfl
@[simp] theorem withOthers_tlb (s : State) (v : List Hart) : (s.withOthers v).hart.tlb = s.hart.tlb := rfl
@[simp] theorem withOthers_hartid (s : State) (v : List Hart) : (s.withOthers v).hart.hartid = s.hart.hartid := rfl
@[simp] theorem withOthers_lines (s : State) (v : List Hart) : (s.withOthers v).hart.lines = s.hart.lines := rfl
@[simp] theorem withOthers_others (s : State) (v : List Hart) : (s.withOthers v).others = v := rfl
@[simp] theorem withOthers_mem (s : State) (v : List Hart) : (s.withOthers v).mem = s.mem := rfl
@[simp] theorem withOthers_mtime (s : State) (v : List Hart) : (s.withOthers v).mtime = s.mtime := rfl
@[simp] theorem withOthers_len (s : State) (v : List Hart) : (s.withOthers v).len = s.len := rfl
@[simp] theorem withOthers_draws (s : State) (v : List Hart) : (s.withOthers v).draws = s.draws := rfl
@[simp] theorem withOthers_schedule (s : State) (v : List Hart) : (s.withOthers v).schedule = s.schedule := rfl
@[simp] theorem withOthers_busLog (s : State) (v : List Hart) : (s.withOthers v).busLog = s.busLog := rfl
@[simp] theorem withOthers_cfg (s : State) (v : List Hart) : (s.withOthers v).cfg = s.cfg := rfl

/-! ### `withMem` -/

@[simp] theorem withMem_x (s : State) (v : List Host.Cell) : (s.withMem v).hart.x = s.hart.x := rfl
@[simp] theorem withMem_f (s : State) (v : List Host.Cell) : (s.withMem v).hart.f = s.hart.f := rfl
@[simp] theorem withMem_pc (s : State) (v : List Host.Cell) : (s.withMem v).hart.pc = s.hart.pc := rfl
@[simp] theorem withMem_priv (s : State) (v : List Host.Cell) : (s.withMem v).hart.priv = s.hart.priv := rfl
@[simp] theorem withMem_sleeping (s : State) (v : List Host.Cell) : (s.withMem v).hart.sleeping = s.hart.sleeping := rfl
@[simp] theorem withMem_semihosting (s : State) (v : List Host.Cell) : (s.withMem v).hart.semihosting = s.hart.semihosting := rfl
@[simp] theorem withMem_csr (s : State) (v : List Host.Cell) : (s.withMem v).hart.csr = s.hart.csr := rfl
@[simp] theorem withMem_tlb (s : State) (v : List Host.Cell) : (s.withMem v).hart.tlb = s.hart.tlb := rfl
@[simp] theorem withMem_hartid (s : State) (v : List Host.Cell) : (s.withMem v).hart.hartid = s.hart.hartid := rfl
@[simp] theorem withMem_lines (s : State) (v : List Host.Cell) : (s.withMem v).hart.lines = s.hart.lines := rfl
@[simp] theorem withMem_others (s : State) (v : List Host.Cell) : (s.withMem v).others = s.others := rfl
@[simp] theorem withMem_mem (s : State) (v : List Host.Cell) : (s.withMem v).mem = v := rfl
@[simp] theorem withMem_mtime (s : State) (v : List Host.Cell) : (s.withMem v).mtime = s.mtime := rfl
@[simp] theorem withMem_len (s : State) (v : List Host.Cell) : (s.withMem v).len = s.len := rfl
@[simp] theorem withMem_draws (s : State) (v : List Host.Cell) : (s.withMem v).draws = s.draws := rfl
@[simp] theorem withMem_schedule (s : State) (v : List Host.Cell) : (s.withMem v).schedule = s.schedule := rfl
@[simp] theorem withMem_busLog (s : State) (v : List Host.Cell) : (s.withMem v).busLog = s.busLog := rfl
@[simp] theorem withMem_cfg (s : State) (v : List Host.Cell) : (s.withMem v).cfg = s.cfg := rfl

/-! ### `withMtime` -/

@[simp] theorem withMtime_x (s : State) (v : Word) : (s.withMtime v).hart.x = s.hart.x := rfl
@[simp] theorem withMtime_f (s : State) (v : Word) : (s.withMtime v).hart.f = s.hart.f := rfl
@[simp] theorem withMtime_pc (s : State) (v : Word) : (s.withMtime v).hart.pc = s.hart.pc := rfl
@[simp] theorem withMtime_priv (s : State) (v : Word) : (s.withMtime v).hart.priv = s.hart.priv := rfl
@[simp] theorem withMtime_sleeping (s : State) (v : Word) : (s.withMtime v).hart.sleeping = s.hart.sleeping := rfl
@[simp] theorem withMtime_semihosting (s : State) (v : Word) : (s.withMtime v).hart.semihosting = s.hart.semihosting := rfl
@[simp] theorem withMtime_csr (s : State) (v : Word) : (s.withMtime v).hart.csr = s.hart.csr := rfl
@[simp] theorem withMtime_tlb (s : State) (v : Word) : (s.withMtime v).hart.tlb = s.hart.tlb := rfl
@[simp] theorem withMtime_hartid (s : State) (v : Word) : (s.withMtime v).hart.hartid = s.hart.hartid := rfl
@[simp] theorem withMtime_lines (s : State) (v : Word) : (s.withMtime v).hart.lines = s.hart.lines := rfl
@[simp] theorem withMtime_others (s : State) (v : Word) : (s.withMtime v).others = s.others := rfl
@[simp] theorem withMtime_mem (s : State) (v : Word) : (s.withMtime v).mem = s.mem := rfl
@[simp] theorem withMtime_mtime (s : State) (v : Word) : (s.withMtime v).mtime = v := rfl
@[simp] theorem withMtime_len (s : State) (v : Word) : (s.withMtime v).len = s.len := rfl
@[simp] theorem withMtime_draws (s : State) (v : Word) : (s.withMtime v).draws = s.draws := rfl
@[simp] theorem withMtime_schedule (s : State) (v : Word) : (s.withMtime v).schedule = s.schedule := rfl
@[simp] theorem withMtime_busLog (s : State) (v : Word) : (s.withMtime v).busLog = s.busLog := rfl
@[simp] theorem withMtime_cfg (s : State) (v : Word) : (s.withMtime v).cfg = s.cfg := rfl

/-! ### `withLen` -/

@[simp] theorem withLen_x (s : State) (v : InsnLength) : (s.withLen v).hart.x = s.hart.x := rfl
@[simp] theorem withLen_f (s : State) (v : InsnLength) : (s.withLen v).hart.f = s.hart.f := rfl
@[simp] theorem withLen_pc (s : State) (v : InsnLength) : (s.withLen v).hart.pc = s.hart.pc := rfl
@[simp] theorem withLen_priv (s : State) (v : InsnLength) : (s.withLen v).hart.priv = s.hart.priv := rfl
@[simp] theorem withLen_sleeping (s : State) (v : InsnLength) : (s.withLen v).hart.sleeping = s.hart.sleeping := rfl
@[simp] theorem withLen_semihosting (s : State) (v : InsnLength) : (s.withLen v).hart.semihosting = s.hart.semihosting := rfl
@[simp] theorem withLen_csr (s : State) (v : InsnLength) : (s.withLen v).hart.csr = s.hart.csr := rfl
@[simp] theorem withLen_tlb (s : State) (v : InsnLength) : (s.withLen v).hart.tlb = s.hart.tlb := rfl
@[simp] theorem withLen_hartid (s : State) (v : InsnLength) : (s.withLen v).hart.hartid = s.hart.hartid := rfl
@[simp] theorem withLen_lines (s : State) (v : InsnLength) : (s.withLen v).hart.lines = s.hart.lines := rfl
@[simp] theorem withLen_others (s : State) (v : InsnLength) : (s.withLen v).others = s.others := rfl
@[simp] theorem withLen_mem (s : State) (v : InsnLength) : (s.withLen v).mem = s.mem := rfl
@[simp] theorem withLen_mtime (s : State) (v : InsnLength) : (s.withLen v).mtime = s.mtime := rfl
@[simp] theorem withLen_len (s : State) (v : InsnLength) : (s.withLen v).len = v := rfl
@[simp] theorem withLen_draws (s : State) (v : InsnLength) : (s.withLen v).draws = s.draws := rfl
@[simp] theorem withLen_schedule (s : State) (v : InsnLength) : (s.withLen v).schedule = s.schedule := rfl
@[simp] theorem withLen_busLog (s : State) (v : InsnLength) : (s.withLen v).busLog = s.busLog := rfl
@[simp] theorem withLen_cfg (s : State) (v : InsnLength) : (s.withLen v).cfg = s.cfg := rfl

/-! ### `withDraws` -/

@[simp] theorem withDraws_x (s : State) (v : Nat) : (s.withDraws v).hart.x = s.hart.x := rfl
@[simp] theorem withDraws_f (s : State) (v : Nat) : (s.withDraws v).hart.f = s.hart.f := rfl
@[simp] theorem withDraws_pc (s : State) (v : Nat) : (s.withDraws v).hart.pc = s.hart.pc := rfl
@[simp] theorem withDraws_priv (s : State) (v : Nat) : (s.withDraws v).hart.priv = s.hart.priv := rfl
@[simp] theorem withDraws_sleeping (s : State) (v : Nat) : (s.withDraws v).hart.sleeping = s.hart.sleeping := rfl
@[simp] theorem withDraws_semihosting (s : State) (v : Nat) : (s.withDraws v).hart.semihosting = s.hart.semihosting := rfl
@[simp] theorem withDraws_csr (s : State) (v : Nat) : (s.withDraws v).hart.csr = s.hart.csr := rfl
@[simp] theorem withDraws_tlb (s : State) (v : Nat) : (s.withDraws v).hart.tlb = s.hart.tlb := rfl
@[simp] theorem withDraws_hartid (s : State) (v : Nat) : (s.withDraws v).hart.hartid = s.hart.hartid := rfl
@[simp] theorem withDraws_lines (s : State) (v : Nat) : (s.withDraws v).hart.lines = s.hart.lines := rfl
@[simp] theorem withDraws_others (s : State) (v : Nat) : (s.withDraws v).others = s.others := rfl
@[simp] theorem withDraws_mem (s : State) (v : Nat) : (s.withDraws v).mem = s.mem := rfl
@[simp] theorem withDraws_mtime (s : State) (v : Nat) : (s.withDraws v).mtime = s.mtime := rfl
@[simp] theorem withDraws_len (s : State) (v : Nat) : (s.withDraws v).len = s.len := rfl
@[simp] theorem withDraws_draws (s : State) (v : Nat) : (s.withDraws v).draws = v := rfl
@[simp] theorem withDraws_schedule (s : State) (v : Nat) : (s.withDraws v).schedule = s.schedule := rfl
@[simp] theorem withDraws_busLog (s : State) (v : Nat) : (s.withDraws v).busLog = s.busLog := rfl
@[simp] theorem withDraws_cfg (s : State) (v : Nat) : (s.withDraws v).cfg = s.cfg := rfl

/-! ### `withSchedule` -/

@[simp] theorem withSchedule_x (s : State) (v : List (List EnvEvent)) : (s.withSchedule v).hart.x = s.hart.x := rfl
@[simp] theorem withSchedule_f (s : State) (v : List (List EnvEvent)) : (s.withSchedule v).hart.f = s.hart.f := rfl
@[simp] theorem withSchedule_pc (s : State) (v : List (List EnvEvent)) : (s.withSchedule v).hart.pc = s.hart.pc := rfl
@[simp] theorem withSchedule_priv (s : State) (v : List (List EnvEvent)) : (s.withSchedule v).hart.priv = s.hart.priv := rfl
@[simp] theorem withSchedule_sleeping (s : State) (v : List (List EnvEvent)) : (s.withSchedule v).hart.sleeping = s.hart.sleeping := rfl
@[simp] theorem withSchedule_semihosting (s : State) (v : List (List EnvEvent)) : (s.withSchedule v).hart.semihosting = s.hart.semihosting := rfl
@[simp] theorem withSchedule_csr (s : State) (v : List (List EnvEvent)) : (s.withSchedule v).hart.csr = s.hart.csr := rfl
@[simp] theorem withSchedule_tlb (s : State) (v : List (List EnvEvent)) : (s.withSchedule v).hart.tlb = s.hart.tlb := rfl
@[simp] theorem withSchedule_hartid (s : State) (v : List (List EnvEvent)) : (s.withSchedule v).hart.hartid = s.hart.hartid := rfl
@[simp] theorem withSchedule_lines (s : State) (v : List (List EnvEvent)) : (s.withSchedule v).hart.lines = s.hart.lines := rfl
@[simp] theorem withSchedule_others (s : State) (v : List (List EnvEvent)) : (s.withSchedule v).others = s.others := rfl
@[simp] theorem withSchedule_mem (s : State) (v : List (List EnvEvent)) : (s.withSchedule v).mem = s.mem := rfl
@[simp] theorem withSchedule_mtime (s : State) (v : List (List EnvEvent)) : (s.withSchedule v).mtime = s.mtime := rfl
@[simp] theorem withSchedule_len (s : State) (v : List (List EnvEvent)) : (s.withSchedule v).len = s.len := rfl
@[simp] theorem withSchedule_draws (s : State) (v : List (List EnvEvent)) : (s.withSchedule v).draws = s.draws := rfl
@[simp] theorem withSchedule_schedule (s : State) (v : List (List EnvEvent)) : (s.withSchedule v).schedule = v := rfl
@[simp] theorem withSchedule_busLog (s : State) (v : List (List EnvEvent)) : (s.withSchedule v).busLog = s.busLog := rfl
@[simp] theorem withSchedule_cfg (s : State) (v : List (List EnvEvent)) : (s.withSchedule v).cfg = s.cfg := rfl

/-! ### `withBusLog` -/

@[simp] theorem withBusLog_x (s : State) (v : List BusAccess) : (s.withBusLog v).hart.x = s.hart.x := rfl
@[simp] theorem withBusLog_f (s : State) (v : List BusAccess) : (s.withBusLog v).hart.f = s.hart.f := rfl
@[simp] theorem withBusLog_pc (s : State) (v : List BusAccess) : (s.withBusLog v).hart.pc = s.hart.pc := rfl
@[simp] theorem withBusLog_priv (s : State) (v : List BusAccess) : (s.withBusLog v).hart.priv = s.hart.priv := rfl
@[simp] theorem withBusLog_sleeping (s : State) (v : List BusAccess) : (s.withBusLog v).hart.sleeping = s.hart.sleeping := rfl
@[simp] theorem withBusLog_semihosting (s : State) (v : List BusAccess) : (s.withBusLog v).hart.semihosting = s.hart.semihosting := rfl
@[simp] theorem withBusLog_csr (s : State) (v : List BusAccess) : (s.withBusLog v).hart.csr = s.hart.csr := rfl
@[simp] theorem withBusLog_tlb (s : State) (v : List BusAccess) : (s.withBusLog v).hart.tlb = s.hart.tlb := rfl
@[simp] theorem withBusLog_hartid (s : State) (v : List BusAccess) : (s.withBusLog v).hart.hartid = s.hart.hartid := rfl
@[simp] theorem withBusLog_lines (s : State) (v : List BusAccess) : (s.withBusLog v).hart.lines = s.hart.lines := rfl
@[simp] theorem withBusLog_others (s : State) (v : List BusAccess) : (s.withBusLog v).others = s.others := rfl
@[simp] theorem withBusLog_mem (s : State) (v : List BusAccess) : (s.withBusLog v).mem = s.mem := rfl
@[simp] theorem withBusLog_mtime (s : State) (v : List BusAccess) : (s.withBusLog v).mtime = s.mtime := rfl
@[simp] theorem withBusLog_len (s : State) (v : List BusAccess) : (s.withBusLog v).len = s.len := rfl
@[simp] theorem withBusLog_draws (s : State) (v : List BusAccess) : (s.withBusLog v).draws = s.draws := rfl
@[simp] theorem withBusLog_schedule (s : State) (v : List BusAccess) : (s.withBusLog v).schedule = s.schedule := rfl
@[simp] theorem withBusLog_busLog (s : State) (v : List BusAccess) : (s.withBusLog v).busLog = v := rfl
@[simp] theorem withBusLog_cfg (s : State) (v : List BusAccess) : (s.withBusLog v).cfg = s.cfg := rfl

/-! ### `withHart` -/

@[simp] theorem withHart_hart (s : State) (v : Hart) : (s.withHart v).hart = v := rfl
@[simp] theorem withHart_others (s : State) (v : Hart) : (s.withHart v).others = s.others := rfl
@[simp] theorem withHart_mem (s : State) (v : Hart) : (s.withHart v).mem = s.mem := rfl
@[simp] theorem withHart_mtime (s : State) (v : Hart) : (s.withHart v).mtime = s.mtime := rfl
@[simp] theorem withHart_len (s : State) (v : Hart) : (s.withHart v).len = s.len := rfl
@[simp] theorem withHart_draws (s : State) (v : Hart) : (s.withHart v).draws = s.draws := rfl
@[simp] theorem withHart_schedule (s : State) (v : Hart) : (s.withHart v).schedule = s.schedule := rfl
@[simp] theorem withHart_busLog (s : State) (v : Hart) : (s.withHart v).busLog = s.busLog := rfl
@[simp] theorem withHart_cfg (s : State) (v : Hart) : (s.withHart v).cfg = s.cfg := rfl

/-! ### `retire` and `nextDraw` -/

@[simp] theorem retire_x (s : State) (len : Nat) : (s.retire len).hart.x = s.hart.x := rfl
@[simp] theorem retire_f (s : State) (len : Nat) : (s.retire len).hart.f = s.hart.f := rfl
@[simp] theorem retire_pc (s : State) (len : Nat) : (s.retire len).hart.pc = s.hart.pc + BitVec.ofNat 64 len := rfl
@[simp] theorem retire_priv (s : State) (len : Nat) : (s.retire len).hart.priv = s.hart.priv := rfl
@[simp] theorem retire_sleeping (s : State) (len : Nat) : (s.retire len).hart.sleeping = s.hart.sleeping := rfl
@[simp] theorem retire_semihosting (s : State) (len : Nat) : (s.retire len).hart.semihosting = s.hart.semihosting := rfl
@[simp] theorem retire_csr (s : State) (len : Nat) : (s.retire len).hart.csr = s.hart.csr := rfl
@[simp] theorem retire_tlb (s : State) (len : Nat) : (s.retire len).hart.tlb = s.hart.tlb := rfl
@[simp] theorem retire_hartid (s : State) (len : Nat) : (s.retire len).hart.hartid = s.hart.hartid := rfl
@[simp] theorem retire_lines (s : State) (len : Nat) : (s.retire len).hart.lines = s.hart.lines := rfl
@[simp] theorem retire_others (s : State) (len : Nat) : (s.retire len).others = s.others := rfl
@[simp] theorem retire_mem (s : State) (len : Nat) : (s.retire len).mem = s.mem := rfl
@[simp] theorem retire_mtime (s : State) (len : Nat) : (s.retire len).mtime = s.mtime := rfl
@[simp] theorem retire_len (s : State) (len : Nat) : (s.retire len).len = s.len := rfl
@[simp] theorem retire_draws (s : State) (len : Nat) : (s.retire len).draws = s.draws := rfl
@[simp] theorem retire_schedule (s : State) (len : Nat) : (s.retire len).schedule = s.schedule := rfl
@[simp] theorem retire_busLog (s : State) (len : Nat) : (s.retire len).busLog = s.busLog := rfl
@[simp] theorem retire_cfg (s : State) (len : Nat) : (s.retire len).cfg = s.cfg := rfl
@[simp] theorem nextDraw_x (s : State) : s.nextDraw.hart.x = s.hart.x := rfl
@[simp] theorem nextDraw_f (s : State) : s.nextDraw.hart.f = s.hart.f := rfl
@[simp] theorem nextDraw_pc (s : State) : s.nextDraw.hart.pc = s.hart.pc := rfl
@[simp] theorem nextDraw_priv (s : State) : s.nextDraw.hart.priv = s.hart.priv := rfl
@[simp] theorem nextDraw_sleeping (s : State) : s.nextDraw.hart.sleeping = s.hart.sleeping := rfl
@[simp] theorem nextDraw_semihosting (s : State) : s.nextDraw.hart.semihosting = s.hart.semihosting := rfl
@[simp] theorem nextDraw_csr (s : State) : s.nextDraw.hart.csr = s.hart.csr := rfl
@[simp] theorem nextDraw_tlb (s : State) : s.nextDraw.hart.tlb = s.hart.tlb := rfl
@[simp] theorem nextDraw_hartid (s : State) : s.nextDraw.hart.hartid = s.hart.hartid := rfl
@[simp] theorem nextDraw_lines (s : State) : s.nextDraw.hart.lines = s.hart.lines := rfl
@[simp] theorem nextDraw_others (s : State) : s.nextDraw.others = s.others := rfl
@[simp] theorem nextDraw_mem (s : State) : s.nextDraw.mem = s.mem := rfl
@[simp] theorem nextDraw_mtime (s : State) : s.nextDraw.mtime = s.mtime := rfl
@[simp] theorem nextDraw_len (s : State) : s.nextDraw.len = s.len := rfl
@[simp] theorem nextDraw_draws (s : State) : s.nextDraw.draws = s.draws + 1 := rfl
@[simp] theorem nextDraw_schedule (s : State) : s.nextDraw.schedule = s.schedule := rfl
@[simp] theorem nextDraw_busLog (s : State) : s.nextDraw.busLog = s.busLog := rfl
@[simp] theorem nextDraw_cfg (s : State) : s.nextDraw.cfg = s.cfg := rfl

/-! ### The length of an instruction (R14, R203) -/

/-- A length is 2 or 4 bytes. -/
theorem bytes_cases (l : InsnLength) : l.bytes = 2 ∨ l.bytes = 4 := by cases l <;> simp [InsnLength.bytes]

/-- A length of 2 or 4 bytes is kept as it is. -/
theorem bytes_ofBytes {n : Nat} (h : n = 2 ∨ n = 4) : (InsnLength.ofBytes n).bytes = n := by
  rcases h with rfl | rfl <;> rfl

/-- An advance by the length of an instruction keeps bit 0 of the pc (R41). -/
theorem advance_even (pc : Word) (l : InsnLength) : (pc + BitVec.ofNat 64 l.bytes) &&& 1 = pc &&& 1 := by
  have h : (pc + BitVec.ofNat 64 l.bytes).toNat % 2 = pc.toNat % 2 := by
    rw [BitVec.toNat_add, BitVec.toNat_ofNat]; rcases bytes_cases l with h | h <;> rw [h] <;> omega
  apply BitVec.eq_of_toNat_eq
  rw [BitVec.toNat_and, BitVec.toNat_and]
  simpa [Nat.and_one_is_mod] using h

/-! ### The stored values of the CSR file -/

@[simp] theorem othersGet_set_same (l : List (BitVec 12 × Word)) (a : BitVec 12) (v : Word) :
    othersGet (othersSet l a v) a = v := by
  induction l with
  | nil => simp [othersSet, othersGet]
  | cons p rest ih => obtain ⟨k, w⟩ := p; by_cases h : k = a <;> simp [othersSet, othersGet, h, ih]

theorem othersGet_set_other (l : List (BitVec 12 × Word)) {a b : BitVec 12} (v : Word) (h : b ≠ a) :
    othersGet (othersSet l a v) b = othersGet l b := by
  induction l with
  | nil => simp [othersSet, othersGet, h.symm]
  | cons p rest ih =>
    obtain ⟨k, w⟩ := p
    by_cases hk : k = a
    · subst hk; simp [othersSet, othersGet, h.symm]
    · simp [othersSet, othersGet, hk, ih]

@[simp] theorem CsrFile_get_set_same (c : CsrFile) (r : CsrReg) (v : Word) : (c.set r v).get r = v := by
  cases r
  case other a => exact othersGet_set_same _ a v
  all_goals rfl

theorem CsrFile_get_set_other (c : CsrFile) (r q : CsrReg) (v : Word) (h : q ≠ r) : (c.set r v).get q = c.get q := by
  cases r
  case other a =>
    cases q
    case other b => exact othersGet_set_other _ v fun hab => h (hab ▸ rfl)
    all_goals rfl
  all_goals cases q <;> first | rfl | exact absurd rfl h

@[simp] theorem CsrFile_set_mipLatch (c : CsrFile) (r : CsrReg) (v : Word) : (c.set r v).mipLatch = c.mipLatch := by
  cases r <;> rfl

end Sys2Proof.Machine
end

