-- ==== Sys2Proof/Laws/Registers.lean ====
section
/-! SUPPORT. Reading and writing registers: what a write changes, and that no other update changes a register. -/

namespace Sys2Proof.Machine

/-! ### General registers (R30, R31) -/

@[simp] theorem readX_zero (s : State) : s.readX 0 = 0 := rfl

@[simp] theorem writeX_zero (s : State) (v : Word) : s.writeX 0 v = s := rfl

/-- The read of a register other than x0. -/
theorem readX_of_ne (s : State) {r : BitVec 5} (h : r ≠ 0) : s.readX r = s.hart.x[r.toNat]'r.isLt := if_neg h

/-- The write of a register other than x0. -/
theorem writeX_of_ne (s : State) {r : BitVec 5} (h : r ≠ 0) (v : Word) :
    s.writeX r v = s.withX (s.hart.x.set r.toNat v r.isLt) := if_neg h

/-- A write reaches its own register, unless that is x0, and no other. -/
theorem readX_writeX (s : State) (r q : BitVec 5) (v : Word) :
    (s.writeX r v).readX q = if q = r then (if r = 0 then 0 else v) else s.readX q := by
  by_cases hr : r = 0
  · subst hr
    by_cases hq : q = 0
    · subst hq; rw [if_pos rfl, if_pos rfl]; rfl
    · rw [if_neg hq]; rfl
  · rw [writeX_of_ne s hr]
    by_cases hq : q = 0
    · subst hq; rw [if_neg fun h => hr h.symm]; rfl
    · rw [readX_of_ne _ hq, readX_of_ne _ hq, if_neg hr]
      by_cases hqr : q = r
      · subst hqr; simp
      · have : r.toNat ≠ q.toNat := fun h => hqr (BitVec.eq_of_toNat_eq h.symm)
        rw [if_neg hqr]; simp [this]

@[simp] theorem readX_writeX_same (s : State) (r : BitVec 5) (v : Word) :
    (s.writeX r v).readX r = if r = 0 then 0 else v := by simp [readX_writeX]

theorem readX_writeX_other (s : State) {r q : BitVec 5} (v : Word) (h : q ≠ r) :
    (s.writeX r v).readX q = s.readX q := by simp [readX_writeX, h]

/-- Entry 0 of the register file is never written. -/
@[simp] theorem writeX_entry0 (s : State) (r : BitVec 5) (v : Word) : (s.writeX r v).hart.x[0] = s.hart.x[0] := by
  by_cases hr : r = 0
  · rw [hr]; rfl
  · have : r.toNat ≠ 0 := fun h => hr (BitVec.eq_of_toNat_eq h)
    rw [writeX_of_ne s hr]; simp [this]

/-- A register write is the update of the register file it makes. -/
theorem writeX_eq (s : State) (r : BitVec 5) (v : Word) : s.writeX r v = s.withX (s.writeX r v).hart.x := by
  unfold State.writeX; split <;> rfl

@[simp] theorem writeX_f (s : State) (r : BitVec 5) (v : Word) : (s.writeX r v).hart.f = s.hart.f := by
  unfold State.writeX; split <;> rfl
@[simp] theorem writeX_pc (s : State) (r : BitVec 5) (v : Word) : (s.writeX r v).hart.pc = s.hart.pc := by
  unfold State.writeX; split <;> rfl
@[simp] theorem writeX_priv (s : State) (r : BitVec 5) (v : Word) : (s.writeX r v).hart.priv = s.hart.priv := by
  unfold State.writeX; split <;> rfl
@[simp] theorem writeX_sleeping (s : State) (r : BitVec 5) (v : Word) : (s.writeX r v).hart.sleeping = s.hart.sleeping := by
  unfold State.writeX; split <;> rfl
@[simp] theorem writeX_semihosting (s : State) (r : BitVec 5) (v : Word) : (s.writeX r v).hart.semihosting = s.hart.semihosting := by
  unfold State.writeX; split <;> rfl
@[simp] theorem writeX_csr (s : State) (r : BitVec 5) (v : Word) : (s.writeX r v).hart.csr = s.hart.csr := by
  unfold State.writeX; split <;> rfl
@[simp] theorem writeX_tlb (s : State) (r : BitVec 5) (v : Word) : (s.writeX r v).hart.tlb = s.hart.tlb := by
  unfold State.writeX; split <;> rfl
@[simp] theorem writeX_hartid (s : State) (r : BitVec 5) (v : Word) : (s.writeX r v).hart.hartid = s.hart.hartid := by
  unfold State.writeX; split <;> rfl
@[simp] theorem writeX_lines (s : State) (r : BitVec 5) (v : Word) : (s.writeX r v).hart.lines = s.hart.lines := by
  unfold State.writeX; split <;> rfl
@[simp] theorem writeX_others (s : State) (r : BitVec 5) (v : Word) : (s.writeX r v).others = s.others := by
  unfold State.writeX; split <;> rfl
@[simp] theorem writeX_mem (s : State) (r : BitVec 5) (v : Word) : (s.writeX r v).mem = s.mem := by
  unfold State.writeX; split <;> rfl
@[simp] theorem writeX_mtime (s : State) (r : BitVec 5) (v : Word) : (s.writeX r v).mtime = s.mtime := by
  unfold State.writeX; split <;> rfl
@[simp] theorem writeX_len (s : State) (r : BitVec 5) (v : Word) : (s.writeX r v).len = s.len := by
  unfold State.writeX; split <;> rfl
@[simp] theorem writeX_draws (s : State) (r : BitVec 5) (v : Word) : (s.writeX r v).draws = s.draws := by
  unfold State.writeX; split <;> rfl
@[simp] theorem writeX_schedule (s : State) (r : BitVec 5) (v : Word) : (s.writeX r v).schedule = s.schedule := by
  unfold State.writeX; split <;> rfl
@[simp] theorem writeX_busLog (s : State) (r : BitVec 5) (v : Word) : (s.writeX r v).busLog = s.busLog := by
  unfold State.writeX; split <;> rfl
@[simp] theorem writeX_cfg (s : State) (r : BitVec 5) (v : Word) : (s.writeX r v).cfg = s.cfg := by
  unfold State.writeX; split <;> rfl

/-! ### Floating-point registers (R34) -/

/-- A write reaches its own register and no other. -/
theorem readF_writeF (s : State) (r q : BitVec 5) (v : Word) :
    (s.writeF r v).readF q = if q = r then v else s.readF q := by
  unfold State.writeF State.readF
  by_cases hqr : q = r
  · subst hqr; simp
  · have : r.toNat ≠ q.toNat := fun h => hqr (BitVec.eq_of_toNat_eq h.symm)
    simp [hqr, this]

@[simp] theorem readF_writeF_same (s : State) (r : BitVec 5) (v : Word) : (s.writeF r v).readF r = v := by
  simp [readF_writeF]

theorem readF_writeF_other (s : State) {r q : BitVec 5} (v : Word) (h : q ≠ r) : (s.writeF r v).readF q = s.readF q := by
  simp [readF_writeF, h]

@[simp] theorem readX_writeF (s : State) (r q : BitVec 5) (v : Word) : (s.writeF r v).readX q = s.readX q := rfl
@[simp] theorem readF_writeX (s : State) (r q : BitVec 5) (v : Word) : (s.writeX r v).readF q = s.readF q := by
  unfold State.writeX; split <;> rfl
@[simp] theorem readByte_writeX (s : State) (r : BitVec 5) (v : Word) (a : Nat) :
    (s.writeX r v).readByte a = s.readByte a := by unfold State.writeX; split <;> rfl

@[simp] theorem writeF_pc (s : State) (r : BitVec 5) (v : Word) : (s.writeF r v).hart.pc = s.hart.pc := rfl
@[simp] theorem writeF_priv (s : State) (r : BitVec 5) (v : Word) : (s.writeF r v).hart.priv = s.hart.priv := rfl
@[simp] theorem writeF_sleeping (s : State) (r : BitVec 5) (v : Word) : (s.writeF r v).hart.sleeping = s.hart.sleeping := rfl
@[simp] theorem writeF_semihosting (s : State) (r : BitVec 5) (v : Word) : (s.writeF r v).hart.semihosting = s.hart.semihosting := rfl
@[simp] theorem writeF_csr (s : State) (r : BitVec 5) (v : Word) : (s.writeF r v).hart.csr = s.hart.csr := rfl
@[simp] theorem writeF_tlb (s : State) (r : BitVec 5) (v : Word) : (s.writeF r v).hart.tlb = s.hart.tlb := rfl
@[simp] theorem writeF_hartid (s : State) (r : BitVec 5) (v : Word) : (s.writeF r v).hart.hartid = s.hart.hartid := rfl
@[simp] theorem writeF_lines (s : State) (r : BitVec 5) (v : Word) : (s.writeF r v).hart.lines = s.hart.lines := rfl
@[simp] theorem writeF_others (s : State) (r : BitVec 5) (v : Word) : (s.writeF r v).others = s.others := rfl
@[simp] theorem writeF_mem (s : State) (r : BitVec 5) (v : Word) : (s.writeF r v).mem = s.mem := rfl
@[simp] theorem writeF_mtime (s : State) (r : BitVec 5) (v : Word) : (s.writeF r v).mtime = s.mtime := rfl
@[simp] theorem writeF_len (s : State) (r : BitVec 5) (v : Word) : (s.writeF r v).len = s.len := rfl
@[simp] theorem writeF_draws (s : State) (r : BitVec 5) (v : Word) : (s.writeF r v).draws = s.draws := rfl
@[simp] theorem writeF_schedule (s : State) (r : BitVec 5) (v : Word) : (s.writeF r v).schedule = s.schedule := rfl
@[simp] theorem writeF_busLog (s : State) (r : BitVec 5) (v : Word) : (s.writeF r v).busLog = s.busLog := rfl
@[simp] theorem writeF_cfg (s : State) (r : BitVec 5) (v : Word) : (s.writeF r v).cfg = s.cfg := rfl
@[simp] theorem writeF_x (s : State) (r : BitVec 5) (v : Word) : (s.writeF r v).hart.x = s.hart.x := rfl

/-! ### No other update changes a register or a byte -/

@[simp] theorem readF_withX (s : State) (v : Vector Word 32) (r : BitVec 5) : (s.withX v).readF r = s.readF r := rfl
@[simp] theorem readByte_withX (s : State) (v : Vector Word 32) (a : Nat) : (s.withX v).readByte a = s.readByte a := rfl
@[simp] theorem readX_withF (s : State) (v : Vector Word 32) (r : BitVec 5) : (s.withF v).readX r = s.readX r := rfl
@[simp] theorem readByte_withF (s : State) (v : Vector Word 32) (a : Nat) : (s.withF v).readByte a = s.readByte a := rfl
@[simp] theorem readX_withPc (s : State) (v : Word) (r : BitVec 5) : (s.withPc v).readX r = s.readX r := rfl
@[simp] theorem readF_withPc (s : State) (v : Word) (r : BitVec 5) : (s.withPc v).readF r = s.readF r := rfl
@[simp] theorem readByte_withPc (s : State) (v : Word) (a : Nat) : (s.withPc v).readByte a = s.readByte a := rfl
@[simp] theorem readX_withPriv (s : State) (v : Priv) (r : BitVec 5) : (s.withPriv v).readX r = s.readX r := rfl
@[simp] theorem readF_withPriv (s : State) (v : Priv) (r : BitVec 5) : (s.withPriv v).readF r = s.readF r := rfl
@[simp] theorem readByte_withPriv (s : State) (v : Priv) (a : Nat) : (s.withPriv v).readByte a = s.readByte a := rfl
@[simp] theorem readX_withSleeping (s : State) (v : Bool) (r : BitVec 5) : (s.withSleeping v).readX r = s.readX r := rfl
@[simp] theorem readF_withSleeping (s : State) (v : Bool) (r : BitVec 5) : (s.withSleeping v).readF r = s.readF r := rfl
@[simp] theorem readByte_withSleeping (s : State) (v : Bool) (a : Nat) : (s.withSleeping v).readByte a = s.readByte a := rfl
@[simp] theorem readX_withSemihosting (s : State) (v : Bool) (r : BitVec 5) : (s.withSemihosting v).readX r = s.readX r := rfl
@[simp] theorem readF_withSemihosting (s : State) (v : Bool) (r : BitVec 5) : (s.withSemihosting v).readF r = s.readF r := rfl
@[simp] theorem readByte_withSemihosting (s : State) (v : Bool) (a : Nat) : (s.withSemihosting v).readByte a = s.readByte a := rfl
@[simp] theorem readX_withCsr (s : State) (v : CsrFile) (r : BitVec 5) : (s.withCsr v).readX r = s.readX r := rfl
@[simp] theorem readF_withCsr (s : State) (v : CsrFile) (r : BitVec 5) : (s.withCsr v).readF r = s.readF r := rfl
@[simp] theorem readByte_withCsr (s : State) (v : CsrFile) (a : Nat) : (s.withCsr v).readByte a = s.readByte a := rfl
@[simp] theorem readX_withTlb (s : State) (v : List TlbEntry) (r : BitVec 5) : (s.withTlb v).readX r = s.readX r := rfl
@[simp] theorem readF_withTlb (s : State) (v : List TlbEntry) (r : BitVec 5) : (s.withTlb v).readF r = s.readF r := rfl
@[simp] theorem readByte_withTlb (s : State) (v : List TlbEntry) (a : Nat) : (s.withTlb v).readByte a = s.readByte a := rfl
@[simp] theorem readX_withLines (s : State) (v : IrqLines) (r : BitVec 5) : (s.withLines v).readX r = s.readX r := rfl
@[simp] theorem readF_withLines (s : State) (v : IrqLines) (r : BitVec 5) : (s.withLines v).readF r = s.readF r := rfl
@[simp] theorem readByte_withLines (s : State) (v : IrqLines) (a : Nat) : (s.withLines v).readByte a = s.readByte a := rfl
@[simp] theorem readX_withOthers (s : State) (v : List Hart) (r : BitVec 5) : (s.withOthers v).readX r = s.readX r := rfl
@[simp] theorem readF_withOthers (s : State) (v : List Hart) (r : BitVec 5) : (s.withOthers v).readF r = s.readF r := rfl
@[simp] theorem readByte_withOthers (s : State) (v : List Hart) (a : Nat) : (s.withOthers v).readByte a = s.readByte a := rfl
@[simp] theorem readX_withMem (s : State) (v : List Host.Cell) (r : BitVec 5) : (s.withMem v).readX r = s.readX r := rfl
@[simp] theorem readF_withMem (s : State) (v : List Host.Cell) (r : BitVec 5) : (s.withMem v).readF r = s.readF r := rfl
@[simp] theorem readX_withMtime (s : State) (v : Word) (r : BitVec 5) : (s.withMtime v).readX r = s.readX r := rfl
@[simp] theorem readF_withMtime (s : State) (v : Word) (r : BitVec 5) : (s.withMtime v).readF r = s.readF r := rfl
@[simp] theorem readByte_withMtime (s : State) (v : Word) (a : Nat) : (s.withMtime v).readByte a = s.readByte a := rfl
@[simp] theorem readX_withLen (s : State) (v : InsnLength) (r : BitVec 5) : (s.withLen v).readX r = s.readX r := rfl
@[simp] theorem readF_withLen (s : State) (v : InsnLength) (r : BitVec 5) : (s.withLen v).readF r = s.readF r := rfl
@[simp] theorem readByte_withLen (s : State) (v : InsnLength) (a : Nat) : (s.withLen v).readByte a = s.readByte a := rfl
@[simp] theorem readX_withDraws (s : State) (v : Nat) (r : BitVec 5) : (s.withDraws v).readX r = s.readX r := rfl
@[simp] theorem readF_withDraws (s : State) (v : Nat) (r : BitVec 5) : (s.withDraws v).readF r = s.readF r := rfl
@[simp] theorem readByte_withDraws (s : State) (v : Nat) (a : Nat) : (s.withDraws v).readByte a = s.readByte a := rfl
@[simp] theorem readX_withSchedule (s : State) (v : List (List EnvEvent)) (r : BitVec 5) : (s.withSchedule v).readX r = s.readX r := rfl
@[simp] theorem readF_withSchedule (s : State) (v : List (List EnvEvent)) (r : BitVec 5) : (s.withSchedule v).readF r = s.readF r := rfl
@[simp] theorem readByte_withSchedule (s : State) (v : List (List EnvEvent)) (a : Nat) : (s.withSchedule v).readByte a = s.readByte a := rfl
@[simp] theorem readX_withBusLog (s : State) (v : List BusAccess) (r : BitVec 5) : (s.withBusLog v).readX r = s.readX r := rfl
@[simp] theorem readF_withBusLog (s : State) (v : List BusAccess) (r : BitVec 5) : (s.withBusLog v).readF r = s.readF r := rfl
@[simp] theorem readByte_withBusLog (s : State) (v : List BusAccess) (a : Nat) : (s.withBusLog v).readByte a = s.readByte a := rfl
@[simp] theorem readX_retire (s : State) (len : Nat) (r : BitVec 5) : (s.retire len).readX r = s.readX r := rfl
@[simp] theorem readF_retire (s : State) (len : Nat) (r : BitVec 5) : (s.retire len).readF r = s.readF r := rfl
@[simp] theorem readByte_retire (s : State) (len : Nat) (a : Nat) : (s.retire len).readByte a = s.readByte a := rfl
@[simp] theorem readX_nextDraw (s : State) (r : BitVec 5) : s.nextDraw.readX r = s.readX r := rfl
@[simp] theorem readF_nextDraw (s : State) (r : BitVec 5) : s.nextDraw.readF r = s.readF r := rfl

end Sys2Proof.Machine
end

