-- ==== Sys2Proof/Laws/Memory.lean ====
section
/-! SUPPORT. Memory: every operation keeps the canonical form, a read after a write of the same byte gives what was written, and
a write leaves every other byte alone. -/

namespace Sys2Proof.Machine

/-! ### The canonical form -/

/-- A list whose addresses are all above `some l`, for a lower bound `l'` below `l`, is so for `l'`. -/
theorem Memory_wfFrom_weaken {lo lo' : Option Nat} {m : List Host.Cell} (h : Memory.wfFrom lo m = true)
    (hl : ∀ l', lo' = some l' → ∃ l, lo = some l ∧ l' ≤ l) : Memory.wfFrom lo' m = true := by
  cases m with
  | nil => rfl
  | cons c rest =>
    obtain ⟨a, b⟩ := c
    simp only [Memory.wfFrom, Bool.and_eq_true] at h ⊢
    refine ⟨⟨?_, h.1.2⟩, h.2⟩
    cases lo' with
    | none => rfl
    | some l' =>
      obtain ⟨l, rfl, hle⟩ := hl l' rfl
      have := h.1.1
      simp only [decide_eq_true_eq] at this ⊢
      omega

/-- An entry above the bound may be put before a list above its address. -/
theorem Memory_wfFrom_cell {lo : Option Nat} {a : Nat} {b : Byte} {m : List Host.Cell}
    (hlo : ∀ l, lo = some l → l < a) (h : Memory.wfFrom (some a) m = true) :
    Memory.wfFrom lo (Memory.cell a b m) = true := by
  unfold Memory.cell
  split
  · refine Memory_wfFrom_weaken h ?_
    intro l' hl'; exact ⟨a, rfl, Nat.le_of_lt (hlo l' hl')⟩
  · rename_i hb
    simp only [Memory.wfFrom, Bool.and_eq_true, bne_iff_ne, ne_eq]
    refine ⟨⟨?_, hb⟩, h⟩
    cases lo with
    | none => rfl
    | some l => simpa using hlo l rfl

/-- Writing one byte keeps the canonical form, above any bound below the address. -/
theorem Memory_wfFrom_write (m : List Host.Cell) : ∀ (lo : Option Nat) (a : Nat) (b : Byte),
    (∀ l, lo = some l → l < a) → Memory.wfFrom lo m = true → Memory.wfFrom lo (Memory.write m a b) = true := by
  induction m with
  | nil => intro lo a b hlo _; exact Memory_wfFrom_cell hlo rfl
  | cons c rest ih =>
    obtain ⟨k, x⟩ := c
    intro lo a b hlo h
    have h' := h
    simp only [Memory.wfFrom, Bool.and_eq_true] at h
    unfold Memory.write
    split
    · rename_i hlt
      refine Memory_wfFrom_cell hlo ?_
      simp only [Memory.wfFrom, Bool.and_eq_true]
      exact ⟨⟨by simpa using hlt, h.1.2⟩, h.2⟩
    · split
      · rename_i hge heq
        subst heq
        exact Memory_wfFrom_cell hlo h.2
      · rename_i hge hne
        simp only [Memory.wfFrom, Bool.and_eq_true]
        refine ⟨h.1, ih (some k) a b ?_ h.2⟩
        intro l hl
        obtain rfl := Option.some.inj hl
        omega

/-- Writing one byte keeps the canonical form. -/
theorem Memory_wf_write {m : List Host.Cell} (a : Nat) (b : Byte) (h : Memory.wf m = true) :
    Memory.wf (Memory.write m a b) = true :=
  Memory_wfFrom_write m none a b (by intro l hl; cases hl) h

/-- A store of `n` bytes keeps the canonical form. -/
theorem Memory_wf_writeLE (n : Nat) : ∀ (m : List Host.Cell) (a : Nat) (v : Word),
    Memory.wf m = true → Memory.wf (Memory.writeLE m a n v) = true := by
  induction n with
  | zero => intro m a v h; exact h
  | succ n ih => intro m a v h; exact ih _ _ _ (Memory_wf_write a _ h)

/-! ### Reading after writing -/

/-- A byte below every listed address is unlisted. -/
theorem Memory_read_below (m : List Host.Cell) : ∀ (l a : Nat), a ≤ l → Memory.wfFrom (some l) m = true →
    Memory.read m a = Memory.unlisted := by
  induction m with
  | nil => intro l a _ _; rfl
  | cons c rest ih =>
    obtain ⟨k, x⟩ := c
    intro l a hal h
    simp only [Memory.wfFrom, Bool.and_eq_true, decide_eq_true_eq] at h
    unfold Memory.read
    rw [if_neg (by omega : ¬k = a)]
    exact ih k a (by omega) h.2

/-- The entry put before a list reads as the byte written. -/
theorem Memory_read_cell_same (a : Nat) (b : Byte) (m : List Host.Cell) (h : Memory.wfFrom (some a) m = true) :
    Memory.read (Memory.cell a b m) a = b := by
  unfold Memory.cell
  split
  · rename_i hb; rw [hb]; exact Memory_read_below m a a (Nat.le_refl a) h
  · simp [Memory.read]

/-- The entry put before a list hides no other byte. -/
theorem Memory_read_cell_other (a c : Nat) (b : Byte) (m : List Host.Cell) (h : c ≠ a) :
    Memory.read (Memory.cell a b m) c = Memory.read m c := by
  unfold Memory.cell
  split
  · rfl
  · simp [Memory.read, Ne.symm h]

/-- In canonical memory, above any bound below the address, the byte written is the byte read. -/
theorem Memory_read_write_sameFrom (m : List Host.Cell) : ∀ (lo : Option Nat) (a : Nat) (b : Byte),
    Memory.wfFrom lo m = true → Memory.read (Memory.write m a b) a = b := by
  induction m with
  | nil => intro lo a b _; exact Memory_read_cell_same a b [] rfl
  | cons c rest ih =>
    obtain ⟨k, x⟩ := c
    intro lo a b h
    simp only [Memory.wfFrom, Bool.and_eq_true] at h
    unfold Memory.write
    split
    · rename_i hlt
      refine Memory_read_cell_same a b _ ?_
      simp only [Memory.wfFrom, Bool.and_eq_true]
      exact ⟨⟨by simpa using hlt, h.1.2⟩, h.2⟩
    · split
      · rename_i heq; subst heq; exact Memory_read_cell_same a b rest h.2
      · rename_i hne
        unfold Memory.read
        rw [if_neg (Ne.symm hne)]
        exact ih (some k) a b h.2

/-- In canonical memory the byte written is the byte read. -/
theorem Memory_read_write_same {m : List Host.Cell} (a : Nat) (b : Byte) (h : Memory.wf m = true) :
    Memory.read (Memory.write m a b) a = b := Memory_read_write_sameFrom m none a b h

/-- A write leaves every other byte alone, in any memory. -/
theorem Memory_read_write_other (m : List Host.Cell) (a c : Nat) (b : Byte) (h : c ≠ a) :
    Memory.read (Memory.write m a b) c = Memory.read m c := by
  induction m with
  | nil => exact Memory_read_cell_other a c b [] h
  | cons e rest ih =>
    obtain ⟨k, x⟩ := e
    unfold Memory.write
    split
    · exact Memory_read_cell_other a c b _ h
    · split
      · rename_i heq; subst heq
        rw [Memory_read_cell_other a c b rest h]
        simp [Memory.read, Ne.symm h]
      · by_cases hk : k = c
        · simp [Memory.read, hk]
        · simp [Memory.read, hk, ih]

/-! ### Several bytes (R101) -/

/-- A store of `n` bytes leaves every byte outside them alone, in any memory. -/
theorem Memory_read_writeLE_other (n : Nat) : ∀ (m : List Host.Cell) (a c : Nat) (v : Word),
    c < a ∨ a + n ≤ c → Memory.read (Memory.writeLE m a n v) c = Memory.read m c := by
  induction n with
  | zero => intro m a c v _; rfl
  | succ n ih =>
    intro m a c v h
    unfold Memory.writeLE
    rw [ih _ _ _ _ (by omega), Memory_read_write_other _ _ _ _ (by omega)]

/-- Byte `k` of the bytes stored is byte `k` of the value. -/
theorem Memory_read_writeLE (n : Nat) : ∀ (m : List Host.Cell) (a k : Nat) (v : Word),
    Memory.wf m = true → k < n → Memory.read (Memory.writeLE m a n v) (a + k) = (v >>> (8 * k)).setWidth 8 := by
  induction n with
  | zero => intro m a k v _ hk; omega
  | succ n ih =>
    intro m a k v h hk
    unfold Memory.writeLE
    cases k with
    | zero =>
      rw [Memory_read_writeLE_other _ _ _ _ _ (by omega), Nat.add_zero, Memory_read_write_same _ _ h]
      simp
    | succ k =>
      have : a + (k + 1) = a + 1 + k := by omega
      rw [this, ih _ _ _ _ (Memory_wf_write a _ h) (by omega), ← BitVec.shiftRight_add,
        show 8 + 8 * k = 8 * (k + 1) by omega]

/-- Two memories that agree on `n` bytes give the same value of them. -/
theorem Memory_readLE_congr (n : Nat) : ∀ (m m' : List Host.Cell) (a : Nat),
    (∀ k, k < n → Memory.read m (a + k) = Memory.read m' (a + k)) → Memory.readLE m a n = Memory.readLE m' a n := by
  induction n with
  | zero => intro m m' a _; rfl
  | succ n ih =>
    intro m m' a h
    unfold Memory.readLE
    rw [show Memory.read m a = Memory.read m' a from h 0 (by omega), ih m m' (a + 1)]
    intro k hk
    have := h (k + 1) (by omega)
    rwa [show a + (k + 1) = a + 1 + k by omega] at this

/-- A read of bytes that a store does not touch gives what it gave before. -/
theorem Memory_readLE_writeLE_other (m : List Host.Cell) (a c n k : Nat) (v : Word) (h : c + k ≤ a ∨ a + n ≤ c) :
    Memory.readLE (Memory.writeLE m a n v) c k = Memory.readLE m c k :=
  Memory_readLE_congr k _ _ c fun j hj => Memory_read_writeLE_other n m a (c + j) v (by omega)

end Sys2Proof.Machine
end

