-- ==== Sys2Proof/Laws/Outcome.lean ====
section
/-! SUPPORT. Operations that may raise or fault: what a sequence of them and the rest of an instruction can answer, and what the
physical bus can. -/

namespace Sys2Proof.Machine

/-! ### Sequences -/

@[simp] theorem bind_ok {α β : Type} (a : α) (s : State) (k : α → State → Res β) : (Res.ok a s).bind k = k a s := rfl
@[simp] theorem bind_raise {α β : Type} (e : Exc) (v : Word) (s : State) (k : α → State → Res β) :
    (Res.raise e v s).bind k = .raise e v s := rfl
@[simp] theorem bind_fault {α β : Type} (f : Fault) (k : α → State → Res β) : (Res.fault f).bind k = .fault f := rfl
@[simp] theorem run_ok {α : Type} (a : α) (s : State) (k : α → State → Result) : (Res.ok a s).run k = k a s := rfl
@[simp] theorem run_raise {α : Type} (e : Exc) (v : Word) (s : State) (k : α → State → Result) :
    (Res.raise e v s).run k = raiseExc e v s := rfl
@[simp] theorem run_fault {α : Type} (f : Fault) (k : α → State → Result) : (Res.fault f).run k = .fault f := rfl

/-- A sequence that succeeds: both parts do. -/
theorem bind_eq_ok {α β : Type} {r : Res α} {k : α → State → Res β} {b : β} {t : State} (h : r.bind k = .ok b t) :
    ∃ a s, r = .ok a s ∧ k a s = .ok b t := by
  cases r with
  | ok a s => exact ⟨a, s, rfl, h⟩
  | raise e v s => cases h
  | fault f => cases h

/-- An instruction that goes on after an operation: either the operation succeeded, or its exception was taken. -/
theorem run_eq_next {α : Type} {r : Res α} {k : α → State → Result} {t : State} (h : r.run k = .next t) :
    (∃ a s, r = .ok a s ∧ k a s = .next t) ∨ ∃ e v s, r = .raise e v s ∧ raiseExc e v s = .next t := by
  cases r with
  | ok a s => exact .inl ⟨a, s, rfl, h⟩
  | raise e v s => exact .inr ⟨e, v, s, rfl, h⟩
  | fault f => cases h

/-- The state an operation answers, if it answers one, satisfies `P`. -/
def Res.Post {α : Type} (P : State → Prop) : Res α → Prop
  | .ok _ s => P s
  | .raise _ _ s => P s
  | .fault _ => True

/-- What every part of a sequence keeps, the sequence keeps. -/
theorem Post_bind {α β : Type} {P : State → Prop} {r : Res α} {k : α → State → Res β} (hr : r.Post P)
    (hk : ∀ a s, P s → (k a s).Post P) : (r.bind k).Post P := by
  cases r with
  | ok a s => exact hk a s hr
  | raise e v s => exact hr
  | fault f => trivial

/-- A weaker property follows. -/
theorem Post_mono {α : Type} {P Q : State → Prop} {r : Res α} (h : r.Post P) (hpq : ∀ s, P s → Q s) : r.Post Q := by
  cases r with
  | ok a s => exact hpq s h
  | raise e v s => exact hpq s h
  | fault f => trivial

/-! ### The bus (R100, R101, R131) -/

/-- A read: no range answers, memory answers its bytes, or a device answers a free value and the access is logged. -/
theorem busRead_cases (pa : Word) (n : Nat) (s : State) :
    busRead pa n s = .fault .busFault ∨ busRead pa n s = .ok (Memory.readLE s.mem pa.toNat n) s ∨
    ∃ v, busRead pa n s = .ok v (s.nextDraw.withBusLog (⟨false, pa, n, v⟩ :: s.busLog)) := by
  unfold busRead
  split
  · exact .inl rfl
  · split
    · exact .inr (.inl rfl)
    · exact .inr (.inr ⟨_, rfl⟩)

/-- A write: no range answers, memory takes the bytes, or a device does and the access is logged. -/
theorem busWrite_cases (pa : Word) (n : Nat) (v : Word) (s : State) :
    busWrite pa n v s = .fault .busFault ∨
    busWrite pa n v s = .ok () (s.withMem (Memory.writeLE s.mem pa.toNat n v)) ∨
    busWrite pa n v s = .ok () (s.withBusLog (⟨true, pa, n, lowBytes n v⟩ :: s.busLog)) := by
  unfold busWrite
  split
  · exact .inl rfl
  · split
    · exact .inr (.inl rfl)
    · exact .inr (.inr rfl)

/-- Where memory answers, a read gives its bytes and changes nothing. -/
theorem busRead_of_ramAt {s : State} {pa : Word} {n : Nat} (h : RamAt s pa n) :
    busRead pa n s = .ok (Memory.readLE s.mem pa.toNat n) s := by
  obtain ⟨r, hr, hk⟩ := h
  unfold busRead
  simp only [hr, hk]

/-- Where memory answers, a write stores the bytes and changes nothing else. -/
theorem busWrite_of_ramAt {s : State} {pa : Word} {n : Nat} (v : Word) (h : RamAt s pa n) :
    busWrite pa n v s = .ok () (s.withMem (Memory.writeLE s.mem pa.toNat n v)) := by
  obtain ⟨r, hr, hk⟩ := h
  unfold busWrite
  simp only [hr, hk]

/-- An access that no single range holds, or that ends past the top of the address space, is answered by none (R131). -/
theorem busRange_unanswered {map : List BusRange} {a : Word} {n : Nat}
    (h : 2 ^ 64 < a.toNat + n ∨ ∀ r, r ∈ map → ¬(r.base ≤ a.toNat ∧ a.toNat + n ≤ r.base + r.size)) :
    busRange map a n = none := by
  unfold busRange
  split
  · next hle =>
    replace h := h.resolve_left (by omega)
    exact List.find?_eq_none.mpr fun r hr hc => h r hr (by simpa [BusRange.covers] using hc)
  · rfl

/-- Where no range answers, a read is the model fault BusFault. -/
theorem busRead_unanswered {s : State} {a : Word} {n : Nat} (h : busRange s.cfg.busMap a n = none) :
    busRead a n s = .fault .busFault := by
  simp only [busRead, h]

/-- Where no range answers, a write is the model fault BusFault. -/
theorem busWrite_unanswered {s : State} {a : Word} {n : Nat} (v : Word) (h : busRange s.cfg.busMap a n = none) :
    busWrite a n v s = .fault .busFault := by
  simp only [busWrite, h]

/-- An access memory answers lies inside the address space. -/
theorem ramAt_inside {s : State} {pa : Word} {n : Nat} (h : RamAt s pa n) : pa.toNat + n ≤ 2 ^ 64 := by
  obtain ⟨r, hr, _⟩ := h
  unfold busRange at hr
  split at hr
  · assumption
  · cases hr

end Sys2Proof.Machine
end

