-- ==== Sys2Proof/Laws/Trap.lean ====
section
/-! SUPPORT. Taking a trap: the two outcomes, each in full (R641 to R647). -/

namespace Sys2Proof.Machine

/-- The state after a trap is entered. -/
def trapState (ev : TrapEvent) (tval epc : Word) (s : State) : State :=
  let target := trapTarget ev s.hart
  ((s.withCsr (trapCsr s.cfg.csrTable target ev tval epc s.hart.priv s.hart.csr)).withPriv target).withPc
    (handlerAddress (trapVector target s.hart) ev)

/-- With a zero vector base the model faults before anything changes (R647). -/
theorem takeTrap_zero {ev : TrapEvent} {tval epc : Word} {s : State}
    (h : tvecBase (trapVector (trapTarget ev s.hart) s.hart) = 0) :
    takeTrap ev tval epc s = .fault .noTrapHandler := by
  unfold takeTrap
  simp only [h, if_true]

/-- With a nonzero vector base the trap is entered (R642). -/
theorem takeTrap_enter {ev : TrapEvent} {tval epc : Word} {s : State}
    (h : tvecBase (trapVector (trapTarget ev s.hart) s.hart) ≠ 0) :
    takeTrap ev tval epc s = .next (trapState ev tval epc s) := by
  unfold takeTrap trapState
  simp only [if_neg h]

/-- A trap that is entered had a nonzero vector base. -/
theorem takeTrap_eq_next {ev : TrapEvent} {tval epc : Word} {s t : State} (h : takeTrap ev tval epc s = .next t) :
    tvecBase (trapVector (trapTarget ev s.hart) s.hart) ≠ 0 ∧ t = trapState ev tval epc s := by
  by_cases h0 : tvecBase (trapVector (trapTarget ev s.hart) s.hart) = 0
  · rw [takeTrap_zero h0] at h; cases h
  · rw [takeTrap_enter h0] at h; exact ⟨h0, (Host.Outcome.next.inj h).symm⟩

/-- A trap is refused by nothing. -/
theorem takeTrap_not_refused (ev : TrapEvent) (tval epc : Word) (s : State) (r : Refusal) :
    takeTrap ev tval epc s ≠ .refused r := by
  unfold takeTrap
  dsimp only
  split <;> intro h <;> cases h

@[simp] theorem trapState_x (ev : TrapEvent) (tval epc : Word) (s : State) :
    (trapState ev tval epc s).hart.x = s.hart.x := rfl
@[simp] theorem trapState_f (ev : TrapEvent) (tval epc : Word) (s : State) :
    (trapState ev tval epc s).hart.f = s.hart.f := rfl
@[simp] theorem trapState_priv (ev : TrapEvent) (tval epc : Word) (s : State) :
    (trapState ev tval epc s).hart.priv = trapTarget ev s.hart := rfl
@[simp] theorem trapState_pc (ev : TrapEvent) (tval epc : Word) (s : State) :
    (trapState ev tval epc s).hart.pc = handlerAddress (trapVector (trapTarget ev s.hart) s.hart) ev := rfl
@[simp] theorem trapState_csr (ev : TrapEvent) (tval epc : Word) (s : State) :
    (trapState ev tval epc s).hart.csr =
      trapCsr s.cfg.csrTable (trapTarget ev s.hart) ev tval epc s.hart.priv s.hart.csr := rfl
@[simp] theorem trapState_tlb (ev : TrapEvent) (tval epc : Word) (s : State) :
    (trapState ev tval epc s).hart.tlb = s.hart.tlb := rfl
@[simp] theorem trapState_sleeping (ev : TrapEvent) (tval epc : Word) (s : State) :
    (trapState ev tval epc s).hart.sleeping = s.hart.sleeping := rfl
@[simp] theorem trapState_semihosting (ev : TrapEvent) (tval epc : Word) (s : State) :
    (trapState ev tval epc s).hart.semihosting = s.hart.semihosting := rfl
@[simp] theorem trapState_hartid (ev : TrapEvent) (tval epc : Word) (s : State) :
    (trapState ev tval epc s).hart.hartid = s.hart.hartid := rfl
@[simp] theorem trapState_lines (ev : TrapEvent) (tval epc : Word) (s : State) :
    (trapState ev tval epc s).hart.lines = s.hart.lines := rfl
@[simp] theorem trapState_others (ev : TrapEvent) (tval epc : Word) (s : State) :
    (trapState ev tval epc s).others = s.others := rfl
@[simp] theorem trapState_mem (ev : TrapEvent) (tval epc : Word) (s : State) :
    (trapState ev tval epc s).mem = s.mem := rfl
@[simp] theorem trapState_mtime (ev : TrapEvent) (tval epc : Word) (s : State) :
    (trapState ev tval epc s).mtime = s.mtime := rfl
@[simp] theorem trapState_len (ev : TrapEvent) (tval epc : Word) (s : State) :
    (trapState ev tval epc s).len = s.len := rfl
@[simp] theorem trapState_draws (ev : TrapEvent) (tval epc : Word) (s : State) :
    (trapState ev tval epc s).draws = s.draws := rfl
@[simp] theorem trapState_schedule (ev : TrapEvent) (tval epc : Word) (s : State) :
    (trapState ev tval epc s).schedule = s.schedule := rfl
@[simp] theorem trapState_busLog (ev : TrapEvent) (tval epc : Word) (s : State) :
    (trapState ev tval epc s).busLog = s.busLog := rfl
@[simp] theorem trapState_cfg (ev : TrapEvent) (tval epc : Word) (s : State) :
    (trapState ev tval epc s).cfg = s.cfg := rfl

/-- In the default table the saved pcs are written but for bit 0 (R52, R57). -/
theorem savedPcMask_default : savedPcMask csrTable 0x341 = ~~~1 ∧ savedPcMask csrTable 0x141 = ~~~1 := by decide

/-- What IllegalInstruction answers: no handler, or the trap entered with a draw as the trap value (R202, R633). -/
theorem illegal_cases (s : State) :
    illegal s = .fault .noTrapHandler ∨
    illegal s = .next (trapState (.exception .illegalInstruction) s.draw s.hart.pc s.nextDraw) := by
  unfold illegal raiseExc
  by_cases h0 : tvecBase (trapVector (trapTarget (.exception .illegalInstruction) s.nextDraw.hart) s.nextDraw.hart) = 0
  · exact .inl (takeTrap_zero h0)
  · exact .inr (takeTrap_enter h0)

end Sys2Proof.Machine
end

