-- ==== Sys2Proof/Laws/Csr.lean ====
section
/-! SUPPORT. The CSR file: what a read and a write can change, and the outcomes of a CSR instruction (R60 to R66, R410). -/

namespace Sys2Proof.Machine

/-- A getter changes nothing but the index of the next free value. -/
theorem getter_state (c : CsrComputed) (s : State) : ∃ d, (csrGetter c s).2 = s.withDraws d := by
  cases c
  · exact ⟨s.draws, rfl⟩
  · exact ⟨s.draws + 1, rfl⟩
  · exact ⟨s.draws, rfl⟩
  · exact ⟨s.draws + 1, rfl⟩
  · exact ⟨s.draws, rfl⟩

/-- A setter changes nothing but the CSR file. -/
theorem setter_state (c : CsrComputed) (v : Word) (s : State) : ∃ f, csrSetter c v s = s.withCsr f := by
  cases c
  · exact ⟨_, rfl⟩
  · exact ⟨s.hart.csr, rfl⟩
  · exact ⟨s.hart.csr, rfl⟩
  · exact ⟨s.hart.csr, rfl⟩
  · exact ⟨_, rfl⟩

/-- Reading an address changes nothing but the index of the next free value. -/
theorem csrValueFrom_state (tbl : List CsrRow) : ∀ (n : Nat) (a : BitVec 12) (s : State) (v : Word) (t : State),
    csrValueFrom tbl n a s = some (v, t) → ∃ d, t = s.withDraws d := by
  intro n
  induction n with
  | zero => intro a s v t h; cases h
  | succ n ih =>
    intro a s v t h
    unfold csrValueFrom at h
    split at h
    · cases h
    · split at h
      · obtain ⟨-, rfl⟩ := Prod.mk.inj (Option.some.inj h)
        exact ⟨s.draws, rfl⟩
      · split at h
        · rename_i v' t' heq
          obtain ⟨-, rfl⟩ := Prod.mk.inj (Option.some.inj h)
          exact ih _ _ _ _ heq
        · cases h
      · rename_i c _
        obtain ⟨d, hd⟩ := getter_state c s
        have := congrArg Prod.snd (Option.some.inj h)
        exact ⟨d, by rw [← hd]; exact this.symm⟩

/-- Reading an address changes nothing but the index of the next free value. -/
theorem csrValue_state {a : BitVec 12} {s t : State} {v : Word} (h : csrValue a s = some (v, t)) :
    ∃ d, t = s.withDraws d := csrValueFrom_state _ _ _ _ _ _ h

/-- Writing a row changes nothing but the CSR file and the index of the next free value. -/
theorem csrRowWrite_state (t : CsrRow) (m v : Word) (s : State) :
    ∃ f d, csrRowWrite t m v s = (s.withCsr f).withDraws d := by
  unfold csrRowWrite
  split
  · exact ⟨_, s.draws, rfl⟩
  · rename_i c _
    obtain ⟨d, hd⟩ := getter_state c s
    obtain ⟨f, hf⟩ := setter_state c (maskedWrite (csrGetter c s).1 m v) (csrGetter c s).2
    exact ⟨f, d, by rw [hf, hd]; rfl⟩
  · exact ⟨s.hart.csr, s.draws, rfl⟩

/-- Writing an address changes nothing but the CSR file and the index of the next free value. -/
theorem csrWrite_state (a : BitVec 12) (v : Word) (s : State) : ∃ f d, csrWrite a v s = (s.withCsr f).withDraws d := by
  unfold csrWrite
  split
  · exact csrRowWrite_state _ _ _ _
  · exact ⟨s.hart.csr, s.draws, rfl⟩

/-- An address has a value exactly when its chain has a terminal address (R60, R61). -/
theorem csrValueFrom_isSome (tbl : List CsrRow) : ∀ (n : Nat) (a : BitVec 12) (s : State),
    (csrValueFrom tbl n a s).isSome = (csrTerminalFrom tbl n a).isSome := by
  intro n
  induction n with
  | zero => intro a s; rfl
  | succ n ih =>
    intro a s
    unfold csrValueFrom csrTerminalFrom
    cases hf : csrFind tbl a with
    | none => rfl
    | some r =>
      cases hk : r.kind with
      | storage => simp [hk]
      | computed c => simp [hk]
      | view base =>
        have := ih base s
        cases hv : csrValueFrom tbl n base s <;> cases ht : csrTerminalFrom tbl n base <;> simp_all

theorem csrValue_isSome (a : BitVec 12) (s : State) :
    (csrValue a s).isSome = (csrTerminal s.cfg.csrTable a).isSome := csrValueFrom_isSome _ _ _ _

/-- In a table without a cyclic chain every defined address has a terminal address (R67). -/
theorem csrTerminal_isSome {tbl : List CsrRow} (h : csrAcyclic tbl = true) {a : BitVec 12}
    (ha : (csrFind tbl a).isSome = true) : (csrTerminal tbl a).isSome = true := by
  obtain ⟨r, hr⟩ := Option.isSome_iff_exists.mp ha
  have hm : r ∈ tbl := List.mem_of_find?_eq_some hr
  have hk : r.addr = a := by simpa using List.find?_some hr
  exact hk ▸ List.all_eq_true.mp h r hm

/-- The default table has no cyclic chain (R52, R67). -/
theorem csrAcyclic_default : csrAcyclic csrTable = true := by decide

/-- A CSR instruction raises IllegalInstruction, is refused for a chain without a terminal address, or reads and writes as its
encoding says and goes on (R410). -/
theorem csrInstr_cases (reads writes : Bool) (a : BitVec 12) (rd : BitVec 5) (new : Word → Word) (s : State) :
    csrInstr reads writes a rd new s = illegal s ∨ csrInstr reads writes a rd new s = .refused .aliasCycle ∨
    (∃ old s1, csrValue a s = some (old, s1) ∧
      csrInstr reads writes a rd new s = finish 4 ((if writes then csrWrite a (new old) s1 else s1).writeX rd old)) ∨
    csrInstr reads writes a rd new s = finish 4 (if writes then csrWrite a (new 0) s else s) := by
  unfold csrInstr
  split
  · split
    · exact .inr (.inl rfl)
    · split
      · cases reads
        · exact .inr (.inr (.inr rfl))
        · cases h : csrValue a s with
          | none => exact .inr (.inl rfl)
          | some p => exact .inr (.inr (.inl ⟨p.1, p.2, rfl, rfl⟩))
      · exact .inl rfl
  · exact .inl rfl

/-- Passing the checks, a CSR instruction that reads answers the read value and the write. -/
theorem csrInstr_reads {writes : Bool} {a : BitVec 12} {rd : BitVec 5} {new : Word → Word} {s s1 : State} {old : Word}
    (hr : csrReadable s.cfg.csrTable a s.hart.priv = true) (hw : writes = true → csrWritable s.cfg.csrTable a = true)
    (hv : csrValue a s = some (old, s1)) :
    csrInstr true writes a rd new s = finish 4 ((if writes then csrWrite a (new old) s1 else s1).writeX rd old) := by
  have h1 : (!writes || csrWritable s.cfg.csrTable a) = true := by cases writes <;> simp_all
  have h2 : (csrTerminal s.cfg.csrTable a).isSome = true := by rw [← csrValue_isSome, hv]; rfl
  obtain ⟨t, ht⟩ := Option.isSome_iff_exists.mp h2
  simp [csrInstr, hr, h1, hv, ht]

/-- Passing the checks, a CSR instruction that does not read only writes. -/
theorem csrInstr_writes {a : BitVec 12} {rd : BitVec 5} {new : Word → Word} {s : State}
    (hr : csrReadable s.cfg.csrTable a s.hart.priv = true) (hw : csrWritable s.cfg.csrTable a = true) :
    csrInstr false true a rd new s = finish 4 (csrWrite a (new 0) s) := by
  have h2 : (csrTerminal s.cfg.csrTable a).isSome = true := by
    cases h : csrTerminal s.cfg.csrTable a with
    | none => simp [csrWritable, h] at hw
    | some t => rfl
  obtain ⟨t, ht⟩ := Option.isSome_iff_exists.mp h2
  simp [csrInstr, hr, hw, ht]

/-- Failing a check, a CSR instruction raises IllegalInstruction, in a table without a cyclic chain. -/
theorem csrInstr_illegal {reads writes : Bool} {a : BitVec 12} {rd : BitVec 5} {new : Word → Word} {s : State}
    (hc : csrAcyclic s.cfg.csrTable = true)
    (h : csrReadable s.cfg.csrTable a s.hart.priv = false ∨ (writes = true ∧ csrWritable s.cfg.csrTable a = false)) :
    csrInstr reads writes a rd new s = illegal s := by
  by_cases hr : csrReadable s.cfg.csrTable a s.hart.priv = true
  · have hw := h.resolve_left (by simp [hr])
    have hf : (csrFind s.cfg.csrTable a).isSome = true := by
      simp only [csrReadable, Bool.and_eq_true] at hr
      exact hr.1
    obtain ⟨t, ht⟩ := Option.isSome_iff_exists.mp (csrTerminal_isSome hc hf)
    simp [csrInstr, hr, ht, hw.1, hw.2]
  · simp [csrInstr, hr]

end Sys2Proof.Machine
end

