-- ==== Sys2Proof/Laws/Translate.lean ====
section
/-! SUPPORT. Translation: what it can change, which exceptions it can raise, and the modes that use an address unchanged (R104 to
R128). -/

namespace Sys2Proof.Machine

/-- From `s` to `t` only memory, the TLB, the index of the next free value and the device log may differ, and memory keeps its
canonical form: what translation and the bus can do. -/
def MmuStep (s t : State) : Prop :=
  t = { s with mem := t.mem, draws := t.draws, busLog := t.busLog, hart := { s.hart with tlb := t.hart.tlb } } ∧
  (Memory.wf s.mem = true → Memory.wf t.mem = true)

theorem MmuStep_refl (s : State) : MmuStep s s := ⟨rfl, id⟩

theorem MmuStep_trans {s t u : State} (h : MmuStep s t) (h' : MmuStep t u) : MmuStep s u := by
  refine ⟨?_, fun hw => h'.2 (h.2 hw)⟩
  have h1 := h.1
  have h2 := h'.1
  rw [h1] at h2
  exact h2

theorem MmuStep_withTlb (s : State) (v : List TlbEntry) : MmuStep s (s.withTlb v) := ⟨rfl, id⟩

/-- The fields translation cannot change. -/
theorem MmuStep_fields {s t : State} (h : MmuStep s t) :
    t.hart.x = s.hart.x ∧ t.hart.f = s.hart.f ∧ t.hart.pc = s.hart.pc ∧ t.hart.priv = s.hart.priv ∧
    t.hart.sleeping = s.hart.sleeping ∧ t.hart.semihosting = s.hart.semihosting ∧ t.hart.csr = s.hart.csr ∧
    t.hart.hartid = s.hart.hartid ∧ t.hart.lines = s.hart.lines ∧ t.others = s.others ∧ t.mtime = s.mtime ∧
    t.schedule = s.schedule ∧ t.cfg = s.cfg ∧ t.len = s.len := by
  rw [h.1]
  exact ⟨rfl, rfl, rfl, rfl, rfl, rfl, rfl, rfl, rfl, rfl, rfl, rfl, rfl, rfl⟩

theorem busRead_post (pa : Word) (n : Nat) (s : State) : (busRead pa n s).Post (MmuStep s) := by
  rcases busRead_cases pa n s with h | h | ⟨v, h⟩ <;> rw [h]
  · trivial
  · exact MmuStep_refl s
  · exact ⟨rfl, id⟩

theorem busWrite_post (pa : Word) (n : Nat) (v : Word) (s : State) : (busWrite pa n v s).Post (MmuStep s) := by
  rcases busWrite_cases pa n v s with h | h | h <;> rw [h]
  · trivial
  · exact ⟨rfl, Memory_wf_writeLE n _ _ _⟩
  · exact ⟨rfl, id⟩

theorem touch_post (e : TlbEntry) (va : Word) (kind : Access) (s : State) : (touch e va kind s).Post (MmuStep s) := by
  unfold touch
  split
  · split
    · exact Post_bind (busWrite_post _ _ _ s) fun _ t ht => ht
    · exact MmuStep_refl s
  · exact MmuStep_refl s

theorem descend_post (va : Word) (kind : Access) (asid : Nat) : ∀ (n : Nat) (a : Word) (s : State),
    (descend va kind asid n a s).Post (MmuStep s) := by
  intro n
  induction n with
  | zero => intro a s; exact MmuStep_refl s
  | succ i ih =>
    intro a s
    unfold descend
    refine Post_bind (busRead_post _ _ s) fun pte t ht => ?_
    split
    · exact ht
    · split
      · refine Post_bind (Post_mono (touch_post _ _ _ t) fun u hu => MmuStep_trans ht hu) fun e u hu => ?_
        exact MmuStep_trans hu (MmuStep_withTlb u _)
      · exact Post_mono (ih _ t) fun u hu => MmuStep_trans ht hu

/-- Translation changes nothing but memory, the TLB, the index of the next free value and the device log. -/
theorem translate_post (va : Word) (kind : Access) (s : State) : (translate va kind s).Post (MmuStep s) := by
  unfold translate
  dsimp only
  split
  · exact MmuStep_refl s
  · split
    · exact MmuStep_refl s
    · split
      · unfold walk
        split
        · refine Post_bind (touch_post _ _ _ s) fun e u hu => ?_
          exact MmuStep_trans hu (MmuStep_withTlb u _)
        · exact descend_post _ _ _ _ _ s
      · trivial

/-- Translation leaves the parameters of the machine alone. -/
theorem translate_cfg {va pa : Word} {kind : Access} {s t : State} (h : translate va kind s = .ok pa t) : t.cfg = s.cfg := by
  have hp := translate_post va kind s
  rw [h] at hp
  obtain ⟨-, -, -, -, -, -, -, -, -, -, -, -, hcfg, -⟩ := MmuStep_fields hp
  exact hcfg

theorem dataAddress_post (va : Word) (kind : Access) (n : Nat) (s : State) :
    (dataAddress va kind n s).Post (MmuStep s) := by
  unfold dataAddress
  refine Post_bind (translate_post va kind s) fun pa t ht => ?_
  split
  · trivial
  · exact ht

theorem memRead_post (va : Word) (n : Nat) (s : State) : (memRead va n s).Post (MmuStep s) :=
  Post_bind (dataAddress_post va .read n s) fun _ t ht =>
    Post_mono (busRead_post _ n t) fun _ hu => MmuStep_trans ht hu

theorem memWrite_post (va : Word) (n : Nat) (v : Word) (s : State) : (memWrite va n v s).Post (MmuStep s) :=
  Post_bind (dataAddress_post va .write n s) fun _ t ht =>
    Post_mono (busWrite_post _ n v t) fun _ hu => MmuStep_trans ht hu

/-! ### Addresses used unchanged (R110) -/

theorem translate_untranslated {s : State} (h : Untranslated s) (va : Word) (kind : Access) :
    translate va kind s = .ok va s := by
  unfold translate
  dsimp only
  by_cases hm : s.hart.priv = .machine
  · rw [if_pos hm]
  · rw [if_neg hm, if_pos (h.resolve_left hm)]

theorem translating_untranslated {s : State} (h : Untranslated s) : translating s = false := by
  unfold translating
  rcases h with h | h <;> simp [h]

theorem dataAddress_untranslated {s : State} (h : Untranslated s) (va : Word) (kind : Access) (n : Nat) :
    dataAddress va kind n s = .ok va s := by
  unfold dataAddress
  rw [translate_untranslated h, bind_ok, translating_untranslated h]
  rfl

/-- A load's read where memory answers the address itself. -/
theorem memRead_answered {s : State} {va : Word} {n : Nat} (h : Answered s va n) :
    memRead va n s = .ok (Memory.readLE s.mem va.toNat n) s := by
  unfold memRead
  rw [dataAddress_untranslated h.1, bind_ok, busRead_of_ramAt h.2]

/-- A store's write where memory answers the address itself. -/
theorem memWrite_answered {s : State} {va : Word} {n : Nat} (v : Word) (h : Answered s va n) :
    memWrite va n v s = .ok () (s.withMem (Memory.writeLE s.mem va.toNat n v)) := by
  unfold memWrite
  rw [dataAddress_untranslated h.1, bind_ok, busWrite_of_ramAt v h.2]

/-! ### The exceptions translation raises (R126) -/

theorem busRead_not_raise (pa : Word) (n : Nat) (s : State) (e : Exc) (v : Word) (t : State) :
    busRead pa n s ≠ .raise e v t := by
  rcases busRead_cases pa n s with h | h | ⟨w, h⟩ <;> rw [h] <;> intro h' <;> cases h'

theorem busWrite_not_raise (pa : Word) (n : Nat) (w : Word) (s : State) (e : Exc) (v : Word) (t : State) :
    busWrite pa n w s ≠ .raise e v t := by
  rcases busWrite_cases pa n w s with h | h | h <;> rw [h] <;> intro h' <;> cases h'

/-- The exception an operation raises, if it raises one, is `e` with trap value `v`. -/
def Res.Raises {α : Type} (e : Exc) (v : Word) : Res α → Prop
  | .ok _ _ => True
  | .raise e' v' _ => e' = e ∧ v' = v
  | .fault _ => True

theorem Raises_bind {α β : Type} {e : Exc} {v : Word} {r : Res α} {k : α → State → Res β} (hr : r.Raises e v)
    (hk : ∀ a s, (k a s).Raises e v) : (r.bind k).Raises e v := by
  cases r with
  | ok a s => exact hk a s
  | raise e' v' s => exact hr
  | fault f => trivial

theorem busRead_raises (pa : Word) (n : Nat) (s : State) (e : Exc) (v : Word) : (busRead pa n s).Raises e v := by
  rcases busRead_cases pa n s with h | h | ⟨w, h⟩ <;> rw [h] <;> trivial

theorem busWrite_raises (pa : Word) (n : Nat) (w : Word) (s : State) (e : Exc) (v : Word) :
    (busWrite pa n w s).Raises e v := by
  rcases busWrite_cases pa n w s with h | h | h <;> rw [h] <;> trivial

theorem touch_raises (e : TlbEntry) (va : Word) (kind : Access) (s : State) :
    (touch e va kind s).Raises kind.pageFault va := by
  unfold touch
  split
  · split
    · exact Raises_bind (busWrite_raises _ _ _ _ _ _) fun _ _ => trivial
    · trivial
  · exact ⟨rfl, rfl⟩

theorem descend_raises (va : Word) (kind : Access) (asid : Nat) : ∀ (n : Nat) (a : Word) (s : State),
    (descend va kind asid n a s).Raises kind.pageFault va := by
  intro n
  induction n with
  | zero => intro a s; exact ⟨rfl, rfl⟩
  | succ i ih =>
    intro a s
    unfold descend
    refine Raises_bind (busRead_raises _ _ _ _ _) fun pte t => ?_
    split
    · exact ⟨rfl, rfl⟩
    · split
      · exact Raises_bind (touch_raises _ _ _ _) fun _ _ => trivial
      · exact ih _ t

/-- Translation raises only the page fault of its access kind, with the address as the trap value. -/
theorem translate_raises (va : Word) (kind : Access) (s : State) : (translate va kind s).Raises kind.pageFault va := by
  unfold translate
  dsimp only
  split
  · trivial
  · split
    · trivial
    · split
      · unfold walk
        split
        · exact Raises_bind (touch_raises _ _ _ _) fun _ _ => trivial
        · exact descend_raises _ _ _ _ _ s
      · trivial

theorem dataAddress_raises (va : Word) (kind : Access) (n : Nat) (s : State) :
    (dataAddress va kind n s).Raises kind.pageFault va := by
  refine Raises_bind (translate_raises va kind s) fun pa t => ?_
  split <;> trivial

end Sys2Proof.Machine
end

