-- ==== Sys2Proof/Laws/Cycle.lean ====
section
/-! SUPPORT. The cycle: what the interrupt check, the fetch and the step around them can do (R200, R201, R638). -/

namespace Sys2Proof.Machine

/-- The interrupt check changes nothing but the WFI flag. -/
theorem interruptCheck_state (s : State) : ∃ b, (interruptCheck s).2 = s.withSleeping b := by
  unfold interruptCheck
  split
  · exact ⟨s.hart.sleeping, rfl⟩
  · split
    · split
      · exact ⟨false, rfl⟩
      · exact ⟨false, rfl⟩
    · exact ⟨s.hart.sleeping, rfl⟩

/-- An interrupt is taken only if it is the lowest pending one, the current mode has interrupts enabled, and its target is at
least the current privilege (R635 to R638). -/
theorem interruptCheck_taken {s s1 : State} {c : Interrupt} (h : interruptCheck s = (some c, s1)) :
    lowestPending (pendingBits s.hart) = some c ∧ globalEnable s.cfg s.hart = true ∧
    s.hart.priv.code ≤ (trapTarget (.interrupt c) s.hart).code ∧ s1 = s.withSleeping false := by
  unfold interruptCheck at h
  split at h
  · cases h
  · rename_i c' heq
    split at h
    · rename_i hg
      split at h
      · rename_i hge
        obtain ⟨h1, rfl⟩ := Prod.mk.inj h
        obtain rfl := Option.some.inj h1
        exact ⟨heq, hg, hge, rfl⟩
      · cases h
    · cases h

/-- With nothing pending the interrupt check does nothing. -/
theorem interruptCheck_none {s : State} (h : lowestPending (pendingBits s.hart) = none) :
    interruptCheck s = (none, s) := by
  simp only [interruptCheck, h]

theorem fetchParcel_post (va : Word) (s : State) : (fetchParcel va s).Post (MmuStep s) := by
  unfold fetchParcel
  refine Post_bind (translate_post va .fetch s) fun pa t ht => ?_
  exact Post_bind (Post_mono (busRead_post pa 2 t) fun u hu => MmuStep_trans ht hu) fun v u hu => hu

/-- Fetching changes nothing but memory, the TLB, the index of the next free value and the device log. -/
theorem fetch_post (s : State) : (fetch s).Post (MmuStep s) := by
  unfold fetch
  refine Post_bind (fetchParcel_post _ s) fun lo t ht => ?_
  split
  · exact ht
  · exact Post_bind (Post_mono (fetchParcel_post _ t) fun u hu => MmuStep_trans ht hu) fun hi u hu => hu

/-- A fetch answers a length of 2 or 4 bytes, that of its word (R200). -/
theorem fetch_length {s t : State} {w : Insn} {n : Nat} (h : fetch s = .ok (w, n) t) : n = 2 ∨ n = 4 := by
  unfold fetch at h
  cases hp : fetchParcel s.hart.pc s with
  | raise e v u => rw [hp] at h; cases h
  | fault f => rw [hp] at h; cases h
  | ok lo s1 =>
    rw [hp, bind_ok] at h
    split at h
    · cases h; exact .inl rfl
    · cases hq : fetchParcel (s.hart.pc + 2) s1 with
      | raise e v u => rw [hq] at h; cases h
      | fault f => rw [hq] at h; cases h
      | ok hi s2 => rw [hq, bind_ok] at h; cases h; exact .inr rfl

/-- A word that decodes runs its instruction, with the length of the word (R203). -/
theorem runWord_ok {w : Insn} {n : Nat} {i : Instr} {s : State} (h : decodeIn s.cfg.isaTable s.hart.priv n w = .ok i) :
    runWord w n s = exec i (s.withLen (.ofBytes n)) := by
  simp only [runWord, h]

/-- The step under little-endian byte order is the hart's step after the boundary. -/
theorem step_little {s : State} (h : s.cfg.byteOrder = .little) : step s = runHart (dropTlb (environment s)) := by
  simp only [step, h]

/-- With no interrupt to take and awake, the hart's step is one instruction. -/
theorem runHart_awake {s s1 : State} (h : interruptCheck s = (none, s1)) (hs : s1.hart.sleeping = false) :
    runHart s = runInstruction s1 := by
  simp [runHart, h, hs]

/-- With an empty TLB, or drops switched off, the boundary drops nothing. -/
theorem dropTlb_idle {s : State} (h : s.cfg.tlbMayDrop = false ∨ s.hart.tlb = []) : dropTlb s = s := by
  unfold dropTlb
  rcases h with h | h <;> simp [h]

/-- With nothing scheduled the environment does nothing. -/
theorem environment_idle {s : State} (h : s.schedule = []) : environment s = s := by
  simp only [environment, h]

/-- The entries that stay of a TLB are entries of it, in order. -/
theorem keptEntries_sublist (n : Nat) (tlb : List TlbEntry) : ∀ i, (keptEntries n i tlb).Sublist tlb := by
  induction tlb with
  | nil => intro i; exact List.Sublist.refl _
  | cons e rest ih =>
    intro i
    unfold keptEntries
    split
    · exact (ih _).cons _
    · exact (ih _).cons_cons _

end Sys2Proof.Machine
end

