-- ==== Sys2Proof/Laws/Effects.lean ====
section
/-! SUPPORT. The shared operations of the instructions, each with all it does: an instruction that is one of them has the effect
and the frame that its name says. -/

namespace Sys2Proof.Machine

/-! ### Frames -/

/-- A register write and an advance change nothing but the register and the pc. -/
theorem OnlyX_writeX (rd : BitVec 5) (v pc : Word) (s : State) : OnlyX rd s ((s.writeX rd v).withPc pc) := by
  refine ⟨fun r hr => ?_, fun r => ?_, fun a => ?_, ?_⟩
  · rw [readX_withPc, readX_writeX_other _ _ hr]
  · rw [readF_withPc, readF_writeX]
  · rw [readByte_withPc, readByte_writeX]
  · unfold State.writeX; split <;> rfl

/-- A floating-point register write and an advance change nothing but the register and the pc. -/
theorem OnlyF_writeF (rd : BitVec 5) (v pc : Word) (s : State) : OnlyF rd s ((s.writeF rd v).withPc pc) :=
  ⟨fun _ => rfl, fun _ hr => by rw [readF_withPc, readF_writeF_other _ _ hr], fun _ => rfl, rfl⟩

/-! ### Registers and the pc -/

/-- `finish` after a register write. -/
theorem WritesX_of_finish {i : Instr} {len : Nat} {rd : BitVec 5} {v w : Word} {s : State}
    (h : exec i s = finish len (s.writeX rd v)) (hv : v = w) : WritesX i len rd w s := by
  subst hv
  refine ⟨_, h, ?_, ?_, ?_⟩
  · rw [readX_retire, readX_writeX_same]
  · show (s.writeX rd v).hart.pc + _ = _
    rw [writeX_pc]
  · exact OnlyX_writeX rd v _ s

/-- `finish` after a floating-point register write. -/
theorem WritesF_of_finish {i : Instr} {len : Nat} {rd : BitVec 5} {v w : Word} {s : State}
    (h : exec i s = finish len (s.writeF rd v)) (hv : v = w) : WritesF i len rd w s := by
  subst hv
  exact ⟨_, h, by rw [readF_retire, readF_writeF_same], rfl, OnlyF_writeF rd v _ s⟩

/-- `setX`: the value into the register, then the next instruction. -/
theorem WritesX_of_setX {i : Instr} {len : Nat} {rd : BitVec 5} {v w : Word} {s : State}
    (h : exec i s = setX len rd v s) (hv : v = w) : WritesX i len rd w s := WritesX_of_finish h hv

/-- `link`: the address after the instruction into the register, then the target. -/
theorem JumpsTo_of_link {i : Instr} {len : Nat} {rd : BitVec 5} {target : Word} {s : State}
    (h : exec i s = link len rd target s) : JumpsTo i rd (s.hart.pc + BitVec.ofNat 64 len) target s :=
  ⟨_, h, by rw [readX_withPc, readX_writeX_same], rfl, OnlyX_writeX rd _ target s⟩

/-- A jump that writes nothing but the pc. -/
theorem GoesTo_of_withPc {i : Instr} {target : Word} {s : State} (h : exec i s = .next (s.withPc target)) :
    GoesTo i target s := ⟨_, h, rfl, fun _ => rfl, fun _ => rfl, fun _ => rfl, rfl⟩

/-- `branch`: the target if the condition holds, else the next instruction. -/
theorem GoesTo_of_branch {i : Instr} {len : Nat} {cond : Bool} {p : Prop} [Decidable p] {offset : Word} {s : State}
    (h : exec i s = branch len cond offset s) (hc : cond = decide p) :
    GoesTo i (if p then s.hart.pc + offset else s.hart.pc + BitVec.ofNat 64 len) s := by
  subst hc
  apply GoesTo_of_withPc
  rw [h]
  by_cases hp : p <;> simp [branch, hp, finish, State.retire]

/-! ### Memory -/

/-- `load` where memory answers: the extended bytes into the register. -/
theorem WritesX_of_load {i : Instr} {len n : Nat} {extend : Word → Word} {rd : BitVec 5} {ea w : Word} {s : State}
    (h : exec i s = load len n extend rd ea s) (ha : Answered s ea n)
    (hv : extend (Memory.readLE s.mem ea.toNat n) = w) : WritesX i len rd w s := by
  refine WritesX_of_finish (v := extend (Memory.readLE s.mem ea.toNat n)) ?_ hv
  rw [h, load, memRead_answered ha, run_ok]

/-- `loadF` where memory answers: the bytes, in their box, into the register. -/
theorem WritesF_of_loadF {i : Instr} {len n : Nat} {box : Word → Word} {rd : BitVec 5} {ea w : Word} {s : State}
    (h : exec i s = loadF len n box rd ea s) (ha : Answered s ea n)
    (hv : box (Memory.readLE s.mem ea.toNat n) = w) : WritesF i len rd w s := by
  refine WritesF_of_finish (v := box (Memory.readLE s.mem ea.toNat n)) ?_ hv
  rw [h, loadF, memRead_answered ha, run_ok]

/-- Stored bytes hold the value, and every other byte is kept. -/
theorem writeLE_holds {s t : State} {a n : Nat} {v : Word} (hm : Memory.wf s.mem = true)
    (h : t.mem = Memory.writeLE s.mem a n v) : HoldsBytes t a n v ∧ OtherBytesKept a n s t := by
  constructor
  · intro k hk
    show Memory.read t.mem _ = _
    rw [h, Memory_read_writeLE n _ _ _ _ hm hk]
  · intro b hb
    show Memory.read t.mem _ = Memory.read s.mem _
    rw [h, Memory_read_writeLE_other n _ _ _ _ hb]

/-- `store` where memory answers: exactly the bytes of the access. -/
theorem StoresTo_of_store {i : Instr} {len n : Nat} {v ea : Word} {s : State} (h : exec i s = store len n v ea s)
    (hm : Memory.wf s.mem = true) (ha : Answered s ea n) : StoresTo i len n ea v s := by
  have hx : exec i s = .next ((s.withMem (Memory.writeLE s.mem ea.toNat n v)).retire len) := by
    rw [h, store, memWrite_answered v ha, run_ok]; rfl
  obtain ⟨hb, ho⟩ := writeLE_holds (t := (s.withMem (Memory.writeLE s.mem ea.toNat n v)).retire len) hm rfl
  exact ⟨_, hx, hb, ho, rfl, rfl⟩

/-- A store and a register write: an exchange. -/
theorem Exchanges_of_finish {i : Instr} {n : Nat} {a v : Word} {rd : BitVec 5} {old : Word} {s : State}
    (h : exec i s = finish s.len.bytes ((s.withMem (Memory.writeLE s.mem a.toNat n v)).writeX rd old))
    (hm : Memory.wf s.mem = true) : Exchanges i n a v rd old s := by
  obtain ⟨hb, ho⟩ := writeLE_holds (t := ((s.withMem (Memory.writeLE s.mem a.toNat n v)).writeX rd old).retire s.len.bytes)
    (n := n) (v := v) (a := a.toNat) hm (by show ((s.withMem _).writeX rd old).mem = _; rw [writeX_mem]; rfl)
  refine ⟨_, h, hb, ho, ?_, fun r hr => ?_, ?_, ?_⟩
  · rw [readX_retire, readX_writeX_same]
  · rw [readX_retire, readX_writeX_other _ _ hr]; rfl
  · show ((s.withMem _).writeX rd old).hart.pc + _ = _
    rw [writeX_pc]; rfl
  · unfold State.writeX; split <;> rfl

/-- `amo` at an aligned address that memory answers: the result for the old value. -/
theorem Exchanges_of_amo {i : Instr} {n : Nat} {op : BitVec (8 * n) → BitVec (8 * n) → BitVec (8 * n)}
    {rd rs1 rs2 : BitVec 5} {s : State} (h : exec i s = amo n op rd rs1 rs2 s) (hm : Memory.wf s.mem = true)
    (hal : (s.readX rs1).toNat % n = 0) (ha : Answered s (s.readX rs1) n) :
    let old := Memory.readLE s.mem (s.readX rs1).toNat n
    Exchanges i n (s.readX rs1) (zext (op (old.setWidth (8 * n)) ((s.readX rs2).setWidth (8 * n)))) rd
      (sextBytes n old) s := by
  refine Exchanges_of_finish ?_ hm
  have hal' : alignedTo n (s.readX rs1) = true := by simp [alignedTo, hal]
  rw [h, amo]
  simp only [hal', if_true]
  rw [translate_untranslated ha.1, run_ok, busRead_of_ramAt ha.2, run_ok, busWrite_of_ramAt _ ha.2, run_ok]

/-- `storeConditional` at an aligned address that memory answers: a store and 0. -/
theorem Exchanges_of_storeConditional {i : Instr} {n : Nat} {rd rs1 rs2 : BitVec 5} {s : State}
    (h : exec i s = storeConditional n rd rs1 rs2 s) (hm : Memory.wf s.mem = true)
    (hal : (s.readX rs1).toNat % n = 0) (ha : Answered s (s.readX rs1) n) :
    Exchanges i n (s.readX rs1) (s.readX rs2) rd 0 s := by
  refine Exchanges_of_finish ?_ hm
  have hal' : alignedTo n (s.readX rs1) = true := by simp [alignedTo, hal]
  rw [h, storeConditional]
  simp only [hal', if_true]
  rw [memWrite_answered _ ha, run_ok]

/-! ### Accesses under translation (R104, R105, R126, R128) -/

/-- Below M-mode and outside bare mode addresses are translated. -/
theorem translating_eq_false_iff (s : State) : translating s = false ↔ Untranslated s := by
  unfold translating Untranslated
  by_cases hm : s.hart.priv = .machine <;> by_cases hb : satpMode s.hart.csr.satp = 0 <;> simp [hm, hb]

/-- Translation leaves the mode and `satp`, and so whether addresses are translated. -/
theorem translating_of_ok {va pa : Word} {kind : Access} {s t : State} (h : translate va kind s = .ok pa t) :
    translating t = translating s := by
  have hp := translate_post va kind s
  rw [h] at hp
  obtain ⟨-, -, -, hpriv, -, -, hcsr, -⟩ := MmuStep_fields hp
  simp only [translating, hpriv, hcsr]

/-- A translated address whose access crosses no page under translation is the address of the access. -/
theorem dataAddress_of_translate {kind : Access} {n : Nat} {ea pa : Word} {s t : State} (ht : translate ea kind s = .ok pa t)
    (hc : Untranslated s ∨ ea.toNat % 4096 + n ≤ 4096) : dataAddress ea kind n s = .ok pa t := by
  have h1 : (translating t && crossesPage ea n) = false := by
    rw [translating_of_ok ht]
    rcases hc with hc | hc
    · rw [(translating_eq_false_iff s).mpr hc]; rfl
    · simp [crossesPage, hc]
  rw [dataAddress, ht, bind_ok, h1]; rfl

/-- An instruction that is one translation, the check for a page crossing, and then a bus access. -/
theorem AccessesThrough_of_dataAddress {i : Instr} {kind : Access} {n : Nat} {ea : Word} {s : State}
    {k : Word → State → Result} {after : Word → State → State} (h : exec i s = (dataAddress ea kind n s).run k)
    (hk : ∀ pa t, translate ea kind s = .ok pa t → RamAt t pa n → k pa t = .next (after pa t)) :
    AccessesThrough kind i ea n after s := by
  refine ⟨fun e v t ht => ?_, fun pa t ht hu hc => ?_, fun pa t ht hc hr => ?_⟩
  · have hr := translate_raises ea kind s
    rw [ht] at hr
    obtain ⟨rfl, rfl⟩ := hr
    exact ⟨rfl, rfl, by rw [h, dataAddress, ht]; rfl⟩
  · have h1 : translating t = true := by
      rw [translating_of_ok ht]
      exact Bool.not_eq_false _ ▸ (mt (translating_eq_false_iff s).mp hu)
    rw [h, dataAddress, ht, bind_ok, h1]
    simp [crossesPage, hc, Res.run]
  · rw [h, dataAddress_of_translate ht hc]
    exact hk pa t ht hr

theorem AccessesThrough_of_load {i : Instr} {len n : Nat} {extend : Word → Word} {rd : BitVec 5} {ea : Word} {s : State}
    (h : exec i s = load len n extend rd ea s) :
    AccessesThrough .read i ea n
      (fun pa t => (t.writeX rd (extend (Memory.readLE t.mem pa.toNat n))).retire len) s := by
  refine AccessesThrough_of_dataAddress (k := fun pa t => (busRead pa n t).run fun v u => finish len (u.writeX rd (extend v)))
    ?_ fun pa t _ hr => by rw [busRead_of_ramAt hr]; rfl
  rw [h, load, memRead]
  cases dataAddress ea .read n s <;> rfl

theorem AccessesThrough_of_loadF {i : Instr} {len n : Nat} {box : Word → Word} {rd : BitVec 5} {ea : Word} {s : State}
    (h : exec i s = loadF len n box rd ea s) :
    AccessesThrough .read i ea n
      (fun pa t => (t.writeF rd (box (Memory.readLE t.mem pa.toNat n))).retire len) s := by
  refine AccessesThrough_of_dataAddress (k := fun pa t => (busRead pa n t).run fun v u => finish len (u.writeF rd (box v)))
    ?_ fun pa t _ hr => by rw [busRead_of_ramAt hr]; rfl
  rw [h, loadF, memRead]
  cases dataAddress ea .read n s <;> rfl

theorem AccessesThrough_of_store {i : Instr} {len n : Nat} {v ea : Word} {s : State} (h : exec i s = store len n v ea s) :
    AccessesThrough .write i ea n (fun pa t => (t.withMem (Memory.writeLE t.mem pa.toNat n v)).retire len) s := by
  refine AccessesThrough_of_dataAddress (k := fun pa t => (busWrite pa n v t).run fun _ u => finish len u)
    ?_ fun pa t _ hr => by rw [busWrite_of_ramAt v hr]; rfl
  rw [h, store, memWrite]
  cases dataAddress ea .write n s <;> rfl

theorem AccessesThrough_of_loadReserved {i : Instr} {n : Nat} {rd rs1 : BitVec 5} {s : State}
    (h : exec i s = loadReserved n rd rs1 s) (hal : (s.readX rs1).toNat % n = 0) :
    AccessesThrough .read i (s.readX rs1) n
      (fun pa t => (t.writeX rd (sextBytes n (Memory.readLE t.mem pa.toNat n))).retire s.len.bytes) s :=
  AccessesThrough_of_load (by rw [h, loadReserved]; simp [alignedTo, hal])

theorem AccessesThrough_of_storeConditional {i : Instr} {n : Nat} {rd rs1 rs2 : BitVec 5} {s : State}
    (h : exec i s = storeConditional n rd rs1 rs2 s) (hal : (s.readX rs1).toNat % n = 0) :
    AccessesThrough .write i (s.readX rs1) n
      (fun pa t => ((t.withMem (Memory.writeLE t.mem pa.toNat n (s.readX rs2))).writeX rd 0).retire s.len.bytes) s := by
  refine AccessesThrough_of_dataAddress
    (k := fun pa t => (busWrite pa n (s.readX rs2) t).run fun _ u => finish s.len.bytes (u.writeX rd 0))
    ?_ fun pa t _ hr => by rw [busWrite_of_ramAt _ hr]; rfl
  rw [h, storeConditional, memWrite]
  simp only [alignedTo, hal, beq_self_eq_true, if_true]
  cases dataAddress (s.readX rs1) .write n s <;> rfl

/-- An aligned access of 4 or 8 bytes crosses no page. -/
theorem aligned_not_crossing {n : Nat} (hn : n = 4 ∨ n = 8) {a : Word} (h : a.toNat % n = 0) :
    ¬a.toNat % 4096 + n > 4096 := by
  rcases hn with rfl | rfl <;> omega

theorem AccessesThrough_of_amo {i : Instr} {n : Nat} {op : BitVec (8 * n) → BitVec (8 * n) → BitVec (8 * n)}
    {rd rs1 rs2 : BitVec 5} {s : State} (hn : n = 4 ∨ n = 8) (h : exec i s = amo n op rd rs1 rs2 s)
    (hal : (s.readX rs1).toNat % n = 0) :
    AccessesThrough .write i (s.readX rs1) n
      (fun pa t =>
        let old := Memory.readLE t.mem pa.toNat n
        let new := zext (op (old.setWidth (8 * n)) ((s.readX rs2).setWidth (8 * n)))
        ((t.withMem (Memory.writeLE t.mem pa.toNat n new)).writeX rd (sextBytes n old)).retire s.len.bytes) s := by
  have hx : exec i s = (translate (s.readX rs1) .write s).run fun pa s1 =>
      (busRead pa n s1).run fun old s2 =>
        (busWrite pa n (zext (op (old.setWidth (8 * n)) ((s.readX rs2).setWidth (8 * n)))) s2).run fun _ s3 =>
          finish s.len.bytes (s3.writeX rd (sextBytes n old)) := by
    rw [h, amo]; simp only [alignedTo, hal, beq_self_eq_true, if_true]
  refine ⟨fun e v t ht => ?_, fun pa t _ _ hc => absurd hc (aligned_not_crossing hn hal), fun pa t ht _ hr => ?_⟩
  · have hr := translate_raises (s.readX rs1) .write s
    rw [ht] at hr
    obtain ⟨rfl, rfl⟩ := hr
    exact ⟨rfl, rfl, by rw [hx, ht]; rfl⟩
  · rw [hx, ht, run_ok, busRead_of_ramAt hr, run_ok, busWrite_of_ramAt _ hr, run_ok]; rfl

/-! ### Accesses that the bus does not answer (R131) -/

/-- An instruction that is one translation, the check for a page crossing, and then an access that no range answers. -/
theorem BusFaults_of_dataAddress {i : Instr} {kind : Access} {n : Nat} {ea a : Word} {s : State} {k : Word → State → Result}
    (h : exec i s = (dataAddress ea kind n s).run k) (hk : ∀ t, t.cfg = s.cfg → k a t = .fault .busFault) :
    BusFaults kind i ea n a s :=
  ⟨fun ht => by rw [h, dataAddress, ht]; rfl,
    fun t ht hc => by rw [h, dataAddress_of_translate ht hc, run_ok]; exact hk t (translate_cfg ht)⟩

theorem BusFaults_of_load {i : Instr} {len n : Nat} {extend : Word → Word} {rd : BitVec 5} {ea a : Word} {s : State}
    (h : exec i s = load len n extend rd ea s) (hb : busRange s.cfg.busMap a n = none) : BusFaults .read i ea n a s := by
  refine BusFaults_of_dataAddress (k := fun pa t => (busRead pa n t).run fun v u => finish len (u.writeX rd (extend v)))
    ?_ fun t ht => by rw [busRead_unanswered (ht ▸ hb)]; rfl
  rw [h, load, memRead]
  cases dataAddress ea .read n s <;> rfl

theorem BusFaults_of_loadF {i : Instr} {len n : Nat} {box : Word → Word} {rd : BitVec 5} {ea a : Word} {s : State}
    (h : exec i s = loadF len n box rd ea s) (hb : busRange s.cfg.busMap a n = none) : BusFaults .read i ea n a s := by
  refine BusFaults_of_dataAddress (k := fun pa t => (busRead pa n t).run fun v u => finish len (u.writeF rd (box v)))
    ?_ fun t ht => by rw [busRead_unanswered (ht ▸ hb)]; rfl
  rw [h, loadF, memRead]
  cases dataAddress ea .read n s <;> rfl

theorem BusFaults_of_store {i : Instr} {len n : Nat} {v ea a : Word} {s : State} (h : exec i s = store len n v ea s)
    (hb : busRange s.cfg.busMap a n = none) : BusFaults .write i ea n a s := by
  refine BusFaults_of_dataAddress (k := fun pa t => (busWrite pa n v t).run fun _ u => finish len u)
    ?_ fun t ht => by rw [busWrite_unanswered v (ht ▸ hb)]; rfl
  rw [h, store, memWrite]
  cases dataAddress ea .write n s <;> rfl

theorem BusFaults_of_loadReserved {i : Instr} {n : Nat} {rd rs1 : BitVec 5} {a : Word} {s : State}
    (h : exec i s = loadReserved n rd rs1 s) (hal : (s.readX rs1).toNat % n = 0) (hb : busRange s.cfg.busMap a n = none) :
    BusFaults .read i (s.readX rs1) n a s :=
  BusFaults_of_load (len := s.len.bytes) (extend := sextBytes n) (rd := rd) (by rw [h, loadReserved]; simp [alignedTo, hal]) hb

theorem BusFaults_of_storeConditional {i : Instr} {n : Nat} {rd rs1 rs2 : BitVec 5} {a : Word} {s : State}
    (h : exec i s = storeConditional n rd rs1 rs2 s) (hal : (s.readX rs1).toNat % n = 0)
    (hb : busRange s.cfg.busMap a n = none) : BusFaults .write i (s.readX rs1) n a s := by
  refine BusFaults_of_dataAddress
    (k := fun pa t => (busWrite pa n (s.readX rs2) t).run fun _ u => finish s.len.bytes (u.writeX rd 0))
    ?_ fun t ht => by rw [busWrite_unanswered _ (ht ▸ hb)]; rfl
  rw [h, storeConditional, memWrite]
  simp only [alignedTo, hal, beq_self_eq_true, if_true]
  cases dataAddress (s.readX rs1) .write n s <;> rfl

theorem BusFaults_of_amo {i : Instr} {n : Nat} {op : BitVec (8 * n) → BitVec (8 * n) → BitVec (8 * n)}
    {rd rs1 rs2 : BitVec 5} {a : Word} {s : State} (h : exec i s = amo n op rd rs1 rs2 s)
    (hal : (s.readX rs1).toNat % n = 0) (hb : busRange s.cfg.busMap a n = none) :
    BusFaults .write i (s.readX rs1) n a s := by
  rw [amo] at h
  simp only [alignedTo, hal, beq_self_eq_true, if_true] at h
  exact ⟨fun ht => by rw [h, ht]; rfl,
    fun t ht _ => by rw [h, ht, run_ok, busRead_unanswered (translate_cfg ht ▸ hb)]; rfl⟩

/-! ### Bits of registers that hold fields (R13) -/

/-- Setting one bit changes that bit and no other. -/
theorem bit_setBit (v : Word) (i j : Nat) (b : Bool) (h : i < 64) :
    bit (setBit v i b) j = if j = i then b else bit v j := by
  unfold bit setBit
  by_cases hj : j < 64
  · by_cases hji : j = i
    · subst hji; cases b <;> simp [hj]
    · have h1 : ((1 : Word) <<< i).getLsbD j = false := by
        change ((1#64) <<< i).getLsbD j = false
        rw [BitVec.getLsbD_shiftLeft, BitVec.getLsbD_one]
        by_cases hlt : j < i
        · simp [hlt]
        · have : j - i ≠ 0 := by omega
          simp [this]
      cases b <;> simp only [hji, if_true, if_false, Bool.false_eq_true, BitVec.getLsbD_or, BitVec.getLsbD_and,
        BitVec.getLsbD_not, h1, hj] <;> simp
  · have hne : j ≠ i := by omega
    rw [if_neg hne, BitVec.getLsbD_of_ge _ _ (by omega), BitVec.getLsbD_of_ge _ _ (by omega)]

/-- A low mask of ones. -/
theorem getLsbD_lowMask (n j : Nat) (hn : n ≤ 64) : (BitVec.ofNat 64 (2 ^ n - 1)).getLsbD j = decide (j < n) := by
  rw [BitVec.getLsbD_ofNat, Nat.testBit_two_pow_sub_one]
  by_cases hj : j < n
  · simp [hj]; omega
  · simp [hj]

/-- Replacing a field changes its bits to those of the new value, and no other bit. -/
theorem bit_setField (v x : Word) (lo n j : Nat) (hn : lo + n ≤ 64) :
    bit (setField v lo n x) j = if lo ≤ j ∧ j < lo + n then bit x (j - lo) else bit v j := by
  unfold bit setField
  by_cases hj : j < 64
  · rw [BitVec.getLsbD_or, BitVec.getLsbD_and, BitVec.getLsbD_not, BitVec.getLsbD_shiftLeft, BitVec.getLsbD_shiftLeft,
      BitVec.getLsbD_and, getLsbD_lowMask _ _ (by omega)]
    by_cases hlo : j < lo
    · have : ¬(lo ≤ j ∧ j < lo + n) := by omega
      simp [hlo, hj, this]
    · by_cases hhi : j - lo < n
      · have : lo ≤ j ∧ j < lo + n := by omega
        simp [hlo, hj, hhi, this]
      · have : ¬(lo ≤ j ∧ j < lo + n) := by omega
        simp [hlo, hj, hhi, this]
  · have : ¬(lo ≤ j ∧ j < lo + n) := by omega
    rw [if_neg this, BitVec.getLsbD_of_ge _ _ (by omega), BitVec.getLsbD_of_ge _ _ (by omega)]

/-- The bits of a field are the register's. -/
theorem bit_field (v : Word) (lo n j : Nat) (hn : n ≤ 64) : bit (field v lo n) j = (decide (j < n) && bit v (lo + j)) := by
  unfold bit field
  rw [BitVec.getLsbD_and, BitVec.getLsbD_ushiftRight, getLsbD_lowMask _ _ hn, Bool.and_comm]

end Sys2Proof.Machine
end

