-- ==== Sys2Proof/Laws/PerInstr.lean ====
section
/-! SUPPORT. Statements made of every instruction, one lemma for each constructor: an instruction's operand values rebuild it
(R183, R186), so no operand bit is lost between the syntax and the registry. -/

namespace Sys2Proof.Laws.OperandsRebuild

/-- The operand values of an instruction, handed to the builder of its identifier, give it back. -/
def Statement (i : Instr) : Prop := Instr.ofOperands i.op i.operands = some i

/-- A value widened to 32 bits and cut back is itself. -/
theorem setWidth_back {w : Nat} (h : w ≤ 32) (x : BitVec w) : (x.setWidth 32).setWidth w = x := by
  rw [BitVec.setWidth_setWidth_of_le _ h, BitVec.setWidth_eq]

theorem build1_back {wa : Nat} (f : BitVec wa → Instr)
    (ha : wa ≤ 32)
    (a : BitVec wa) :
    build1 f [a.setWidth 32] = some (f a) := by
  simp only [build1, setWidth_back ha]

theorem build2_back {wa wb : Nat} (f : BitVec wa → BitVec wb → Instr)
    (ha : wa ≤ 32) (hb : wb ≤ 32)
    (a : BitVec wa) (b : BitVec wb) :
    build2 f [a.setWidth 32, b.setWidth 32] = some (f a b) := by
  simp only [build2, setWidth_back ha, setWidth_back hb]

theorem build3_back {wa wb wc : Nat} (f : BitVec wa → BitVec wb → BitVec wc → Instr)
    (ha : wa ≤ 32) (hb : wb ≤ 32) (hc : wc ≤ 32)
    (a : BitVec wa) (b : BitVec wb) (c : BitVec wc) :
    build3 f [a.setWidth 32, b.setWidth 32, c.setWidth 32] = some (f a b c) := by
  simp only [build3, setWidth_back ha, setWidth_back hb, setWidth_back hc]

theorem build4_back {wa wb wc wd : Nat} (f : BitVec wa → BitVec wb → BitVec wc → BitVec wd → Instr)
    (ha : wa ≤ 32) (hb : wb ≤ 32) (hc : wc ≤ 32) (hd : wd ≤ 32)
    (a : BitVec wa) (b : BitVec wb) (c : BitVec wc) (d : BitVec wd) :
    build4 f [a.setWidth 32, b.setWidth 32, c.setWidth 32, d.setWidth 32] = some (f a b c d) := by
  simp only [build4, setWidth_back ha, setWidth_back hb, setWidth_back hc, setWidth_back hd]

theorem build5_back {wa wb wc wd we : Nat} (f : BitVec wa → BitVec wb → BitVec wc → BitVec wd → BitVec we → Instr)
    (ha : wa ≤ 32) (hb : wb ≤ 32) (hc : wc ≤ 32) (hd : wd ≤ 32) (he : we ≤ 32)
    (a : BitVec wa) (b : BitVec wb) (c : BitVec wc) (d : BitVec wd) (e : BitVec we) :
    build5 f [a.setWidth 32, b.setWidth 32, c.setWidth 32, d.setWidth 32, e.setWidth 32] = some (f a b c d e) := by
  simp only [build5, setWidth_back ha, setWidth_back hb, setWidth_back hc, setWidth_back hd, setWidth_back he]

theorem lui (rd : BitVec 5) (imm : BitVec 32) : Statement (.lui rd imm) := build2_back _ (by decide) (by decide) _ _
theorem auipc (rd : BitVec 5) (imm : BitVec 32) : Statement (.auipc rd imm) :=
  build2_back _ (by decide) (by decide) _ _
theorem addi (rd : BitVec 5) (rs1 : BitVec 5) (imm : BitVec 12) : Statement (.addi rd rs1 imm) :=
  build3_back _ (by decide) (by decide) (by decide) _ _ _
theorem slti (rd : BitVec 5) (rs1 : BitVec 5) (imm : BitVec 12) : Statement (.slti rd rs1 imm) :=
  build3_back _ (by decide) (by decide) (by decide) _ _ _
theorem sltiu (rd : BitVec 5) (rs1 : BitVec 5) (imm : BitVec 12) : Statement (.sltiu rd rs1 imm) :=
  build3_back _ (by decide) (by decide) (by decide) _ _ _
theorem xori (rd : BitVec 5) (rs1 : BitVec 5) (imm : BitVec 12) : Statement (.xori rd rs1 imm) :=
  build3_back _ (by decide) (by decide) (by decide) _ _ _
theorem ori (rd : BitVec 5) (rs1 : BitVec 5) (imm : BitVec 12) : Statement (.ori rd rs1 imm) :=
  build3_back _ (by decide) (by decide) (by decide) _ _ _
theorem andi (rd : BitVec 5) (rs1 : BitVec 5) (imm : BitVec 12) : Statement (.andi rd rs1 imm) :=
  build3_back _ (by decide) (by decide) (by decide) _ _ _
theorem slli (rd : BitVec 5) (rs1 : BitVec 5) (shamt : BitVec 6) : Statement (.slli rd rs1 shamt) :=
  build3_back _ (by decide) (by decide) (by decide) _ _ _
theorem srli (rd : BitVec 5) (rs1 : BitVec 5) (shamt : BitVec 6) : Statement (.srli rd rs1 shamt) :=
  build3_back _ (by decide) (by decide) (by decide) _ _ _
theorem srai (rd : BitVec 5) (rs1 : BitVec 5) (shamt : BitVec 6) : Statement (.srai rd rs1 shamt) :=
  build3_back _ (by decide) (by decide) (by decide) _ _ _
theorem add (rd : BitVec 5) (rs1 : BitVec 5) (rs2 : BitVec 5) : Statement (.add rd rs1 rs2) :=
  build3_back _ (by decide) (by decide) (by decide) _ _ _
theorem sub (rd : BitVec 5) (rs1 : BitVec 5) (rs2 : BitVec 5) : Statement (.sub rd rs1 rs2) :=
  build3_back _ (by decide) (by decide) (by decide) _ _ _
theorem sll (rd : BitVec 5) (rs1 : BitVec 5) (rs2 : BitVec 5) : Statement (.sll rd rs1 rs2) :=
  build3_back _ (by decide) (by decide) (by decide) _ _ _
theorem slt (rd : BitVec 5) (rs1 : BitVec 5) (rs2 : BitVec 5) : Statement (.slt rd rs1 rs2) :=
  build3_back _ (by decide) (by decide) (by decide) _ _ _
theorem sltu (rd : BitVec 5) (rs1 : BitVec 5) (rs2 : BitVec 5) : Statement (.sltu rd rs1 rs2) :=
  build3_back _ (by decide) (by decide) (by decide) _ _ _
theorem xor (rd : BitVec 5) (rs1 : BitVec 5) (rs2 : BitVec 5) : Statement (.xor rd rs1 rs2) :=
  build3_back _ (by decide) (by decide) (by decide) _ _ _
theorem srl (rd : BitVec 5) (rs1 : BitVec 5) (rs2 : BitVec 5) : Statement (.srl rd rs1 rs2) :=
  build3_back _ (by decide) (by decide) (by decide) _ _ _
theorem sra (rd : BitVec 5) (rs1 : BitVec 5) (rs2 : BitVec 5) : Statement (.sra rd rs1 rs2) :=
  build3_back _ (by decide) (by decide) (by decide) _ _ _
theorem or (rd : BitVec 5) (rs1 : BitVec 5) (rs2 : BitVec 5) : Statement (.or rd rs1 rs2) :=
  build3_back _ (by decide) (by decide) (by decide) _ _ _
theorem and (rd : BitVec 5) (rs1 : BitVec 5) (rs2 : BitVec 5) : Statement (.and rd rs1 rs2) :=
  build3_back _ (by decide) (by decide) (by decide) _ _ _
theorem addiw (rd : BitVec 5) (rs1 : BitVec 5) (imm : BitVec 12) : Statement (.addiw rd rs1 imm) :=
  build3_back _ (by decide) (by decide) (by decide) _ _ _
theorem slliw (rd : BitVec 5) (rs1 : BitVec 5) (shamt : BitVec 5) : Statement (.slliw rd rs1 shamt) :=
  build3_back _ (by decide) (by decide) (by decide) _ _ _
theorem srliw (rd : BitVec 5) (rs1 : BitVec 5) (shamt : BitVec 5) : Statement (.srliw rd rs1 shamt) :=
  build3_back _ (by decide) (by decide) (by decide) _ _ _
theorem sraiw (rd : BitVec 5) (rs1 : BitVec 5) (shamt : BitVec 5) : Statement (.sraiw rd rs1 shamt) :=
  build3_back _ (by decide) (by decide) (by decide) _ _ _
theorem addw (rd : BitVec 5) (rs1 : BitVec 5) (rs2 : BitVec 5) : Statement (.addw rd rs1 rs2) :=
  build3_back _ (by decide) (by decide) (by decide) _ _ _
theorem subw (rd : BitVec 5) (rs1 : BitVec 5) (rs2 : BitVec 5) : Statement (.subw rd rs1 rs2) :=
  build3_back _ (by decide) (by decide) (by decide) _ _ _
theorem sllw (rd : BitVec 5) (rs1 : BitVec 5) (rs2 : BitVec 5) : Statement (.sllw rd rs1 rs2) :=
  build3_back _ (by decide) (by decide) (by decide) _ _ _
theorem srlw (rd : BitVec 5) (rs1 : BitVec 5) (rs2 : BitVec 5) : Statement (.srlw rd rs1 rs2) :=
  build3_back _ (by decide) (by decide) (by decide) _ _ _
theorem sraw (rd : BitVec 5) (rs1 : BitVec 5) (rs2 : BitVec 5) : Statement (.sraw rd rs1 rs2) :=
  build3_back _ (by decide) (by decide) (by decide) _ _ _
theorem jal (rd : BitVec 5) (imm : BitVec 21) : Statement (.jal rd imm) := build2_back _ (by decide) (by decide) _ _
theorem jalr (rd : BitVec 5) (rs1 : BitVec 5) (imm : BitVec 12) : Statement (.jalr rd rs1 imm) :=
  build3_back _ (by decide) (by decide) (by decide) _ _ _
theorem beq (rs1 : BitVec 5) (rs2 : BitVec 5) (imm : BitVec 13) : Statement (.beq rs1 rs2 imm) :=
  build3_back _ (by decide) (by decide) (by decide) _ _ _
theorem bne (rs1 : BitVec 5) (rs2 : BitVec 5) (imm : BitVec 13) : Statement (.bne rs1 rs2 imm) :=
  build3_back _ (by decide) (by decide) (by decide) _ _ _
theorem blt (rs1 : BitVec 5) (rs2 : BitVec 5) (imm : BitVec 13) : Statement (.blt rs1 rs2 imm) :=
  build3_back _ (by decide) (by decide) (by decide) _ _ _
theorem bge (rs1 : BitVec 5) (rs2 : BitVec 5) (imm : BitVec 13) : Statement (.bge rs1 rs2 imm) :=
  build3_back _ (by decide) (by decide) (by decide) _ _ _
theorem bltu (rs1 : BitVec 5) (rs2 : BitVec 5) (imm : BitVec 13) : Statement (.bltu rs1 rs2 imm) :=
  build3_back _ (by decide) (by decide) (by decide) _ _ _
theorem bgeu (rs1 : BitVec 5) (rs2 : BitVec 5) (imm : BitVec 13) : Statement (.bgeu rs1 rs2 imm) :=
  build3_back _ (by decide) (by decide) (by decide) _ _ _
theorem lb (rd : BitVec 5) (rs1 : BitVec 5) (imm : BitVec 12) : Statement (.lb rd rs1 imm) :=
  build3_back _ (by decide) (by decide) (by decide) _ _ _
theorem lh (rd : BitVec 5) (rs1 : BitVec 5) (imm : BitVec 12) : Statement (.lh rd rs1 imm) :=
  build3_back _ (by decide) (by decide) (by decide) _ _ _
theorem lw (rd : BitVec 5) (rs1 : BitVec 5) (imm : BitVec 12) : Statement (.lw rd rs1 imm) :=
  build3_back _ (by decide) (by decide) (by decide) _ _ _
theorem ld (rd : BitVec 5) (rs1 : BitVec 5) (imm : BitVec 12) : Statement (.ld rd rs1 imm) :=
  build3_back _ (by decide) (by decide) (by decide) _ _ _
theorem lbu (rd : BitVec 5) (rs1 : BitVec 5) (imm : BitVec 12) : Statement (.lbu rd rs1 imm) :=
  build3_back _ (by decide) (by decide) (by decide) _ _ _
theorem lhu (rd : BitVec 5) (rs1 : BitVec 5) (imm : BitVec 12) : Statement (.lhu rd rs1 imm) :=
  build3_back _ (by decide) (by decide) (by decide) _ _ _
theorem lwu (rd : BitVec 5) (rs1 : BitVec 5) (imm : BitVec 12) : Statement (.lwu rd rs1 imm) :=
  build3_back _ (by decide) (by decide) (by decide) _ _ _
theorem sb (rs1 : BitVec 5) (rs2 : BitVec 5) (imm : BitVec 12) : Statement (.sb rs1 rs2 imm) :=
  build3_back _ (by decide) (by decide) (by decide) _ _ _
theorem sh (rs1 : BitVec 5) (rs2 : BitVec 5) (imm : BitVec 12) : Statement (.sh rs1 rs2 imm) :=
  build3_back _ (by decide) (by decide) (by decide) _ _ _
theorem sw (rs1 : BitVec 5) (rs2 : BitVec 5) (imm : BitVec 12) : Statement (.sw rs1 rs2 imm) :=
  build3_back _ (by decide) (by decide) (by decide) _ _ _
theorem sd (rs1 : BitVec 5) (rs2 : BitVec 5) (imm : BitVec 12) : Statement (.sd rs1 rs2 imm) :=
  build3_back _ (by decide) (by decide) (by decide) _ _ _
theorem mul (rd : BitVec 5) (rs1 : BitVec 5) (rs2 : BitVec 5) : Statement (.mul rd rs1 rs2) :=
  build3_back _ (by decide) (by decide) (by decide) _ _ _
theorem mulh (rd : BitVec 5) (rs1 : BitVec 5) (rs2 : BitVec 5) : Statement (.mulh rd rs1 rs2) :=
  build3_back _ (by decide) (by decide) (by decide) _ _ _
theorem mulhsu (rd : BitVec 5) (rs1 : BitVec 5) (rs2 : BitVec 5) : Statement (.mulhsu rd rs1 rs2) :=
  build3_back _ (by decide) (by decide) (by decide) _ _ _
theorem mulhu (rd : BitVec 5) (rs1 : BitVec 5) (rs2 : BitVec 5) : Statement (.mulhu rd rs1 rs2) :=
  build3_back _ (by decide) (by decide) (by decide) _ _ _
theorem div (rd : BitVec 5) (rs1 : BitVec 5) (rs2 : BitVec 5) : Statement (.div rd rs1 rs2) :=
  build3_back _ (by decide) (by decide) (by decide) _ _ _
theorem divu (rd : BitVec 5) (rs1 : BitVec 5) (rs2 : BitVec 5) : Statement (.divu rd rs1 rs2) :=
  build3_back _ (by decide) (by decide) (by decide) _ _ _
theorem rem (rd : BitVec 5) (rs1 : BitVec 5) (rs2 : BitVec 5) : Statement (.rem rd rs1 rs2) :=
  build3_back _ (by decide) (by decide) (by decide) _ _ _
theorem remu (rd : BitVec 5) (rs1 : BitVec 5) (rs2 : BitVec 5) : Statement (.remu rd rs1 rs2) :=
  build3_back _ (by decide) (by decide) (by decide) _ _ _
theorem mulw (rd : BitVec 5) (rs1 : BitVec 5) (rs2 : BitVec 5) : Statement (.mulw rd rs1 rs2) :=
  build3_back _ (by decide) (by decide) (by decide) _ _ _
theorem divw (rd : BitVec 5) (rs1 : BitVec 5) (rs2 : BitVec 5) : Statement (.divw rd rs1 rs2) :=
  build3_back _ (by decide) (by decide) (by decide) _ _ _
theorem divuw (rd : BitVec 5) (rs1 : BitVec 5) (rs2 : BitVec 5) : Statement (.divuw rd rs1 rs2) :=
  build3_back _ (by decide) (by decide) (by decide) _ _ _
theorem remw (rd : BitVec 5) (rs1 : BitVec 5) (rs2 : BitVec 5) : Statement (.remw rd rs1 rs2) :=
  build3_back _ (by decide) (by decide) (by decide) _ _ _
theorem remuw (rd : BitVec 5) (rs1 : BitVec 5) (rs2 : BitVec 5) : Statement (.remuw rd rs1 rs2) :=
  build3_back _ (by decide) (by decide) (by decide) _ _ _
theorem lrW (rd : BitVec 5) (rs1 : BitVec 5) (aq : BitVec 1) (rl : BitVec 1) : Statement (.lrW rd rs1 aq rl) :=
  build4_back _ (by decide) (by decide) (by decide) (by decide) _ _ _ _
theorem scW (rd : BitVec 5) (rs1 : BitVec 5) (rs2 : BitVec 5) (aq : BitVec 1) (rl : BitVec 1) : Statement (.scW rd rs1 rs2 aq rl) :=
  build5_back _ (by decide) (by decide) (by decide) (by decide) (by decide) _ _ _ _ _
theorem amoswapW (rd : BitVec 5) (rs1 : BitVec 5) (rs2 : BitVec 5) (aq : BitVec 1) (rl : BitVec 1) : Statement (.amoswapW rd rs1 rs2 aq rl) :=
  build5_back _ (by decide) (by decide) (by decide) (by decide) (by decide) _ _ _ _ _
theorem amoaddW (rd : BitVec 5) (rs1 : BitVec 5) (rs2 : BitVec 5) (aq : BitVec 1) (rl : BitVec 1) : Statement (.amoaddW rd rs1 rs2 aq rl) :=
  build5_back _ (by decide) (by decide) (by decide) (by decide) (by decide) _ _ _ _ _
theorem amoxorW (rd : BitVec 5) (rs1 : BitVec 5) (rs2 : BitVec 5) (aq : BitVec 1) (rl : BitVec 1) : Statement (.amoxorW rd rs1 rs2 aq rl) :=
  build5_back _ (by decide) (by decide) (by decide) (by decide) (by decide) _ _ _ _ _
theorem amoandW (rd : BitVec 5) (rs1 : BitVec 5) (rs2 : BitVec 5) (aq : BitVec 1) (rl : BitVec 1) : Statement (.amoandW rd rs1 rs2 aq rl) :=
  build5_back _ (by decide) (by decide) (by decide) (by decide) (by decide) _ _ _ _ _
theorem amoorW (rd : BitVec 5) (rs1 : BitVec 5) (rs2 : BitVec 5) (aq : BitVec 1) (rl : BitVec 1) : Statement (.amoorW rd rs1 rs2 aq rl) :=
  build5_back _ (by decide) (by decide) (by decide) (by decide) (by decide) _ _ _ _ _
theorem amominW (rd : BitVec 5) (rs1 : BitVec 5) (rs2 : BitVec 5) (aq : BitVec 1) (rl : BitVec 1) : Statement (.amominW rd rs1 rs2 aq rl) :=
  build5_back _ (by decide) (by decide) (by decide) (by decide) (by decide) _ _ _ _ _
theorem amomaxW (rd : BitVec 5) (rs1 : BitVec 5) (rs2 : BitVec 5) (aq : BitVec 1) (rl : BitVec 1) : Statement (.amomaxW rd rs1 rs2 aq rl) :=
  build5_back _ (by decide) (by decide) (by decide) (by decide) (by decide) _ _ _ _ _
theorem amominuW (rd : BitVec 5) (rs1 : BitVec 5) (rs2 : BitVec 5) (aq : BitVec 1) (rl : BitVec 1) : Statement (.amominuW rd rs1 rs2 aq rl) :=
  build5_back _ (by decide) (by decide) (by decide) (by decide) (by decide) _ _ _ _ _
theorem amomaxuW (rd : BitVec 5) (rs1 : BitVec 5) (rs2 : BitVec 5) (aq : BitVec 1) (rl : BitVec 1) : Statement (.amomaxuW rd rs1 rs2 aq rl) :=
  build5_back _ (by decide) (by decide) (by decide) (by decide) (by decide) _ _ _ _ _
theorem lrD (rd : BitVec 5) (rs1 : BitVec 5) (aq : BitVec 1) (rl : BitVec 1) : Statement (.lrD rd rs1 aq rl) :=
  build4_back _ (by decide) (by decide) (by decide) (by decide) _ _ _ _
theorem scD (rd : BitVec 5) (rs1 : BitVec 5) (rs2 : BitVec 5) (aq : BitVec 1) (rl : BitVec 1) : Statement (.scD rd rs1 rs2 aq rl) :=
  build5_back _ (by decide) (by decide) (by decide) (by decide) (by decide) _ _ _ _ _
theorem amoswapD (rd : BitVec 5) (rs1 : BitVec 5) (rs2 : BitVec 5) (aq : BitVec 1) (rl : BitVec 1) : Statement (.amoswapD rd rs1 rs2 aq rl) :=
  build5_back _ (by decide) (by decide) (by decide) (by decide) (by decide) _ _ _ _ _
theorem amoaddD (rd : BitVec 5) (rs1 : BitVec 5) (rs2 : BitVec 5) (aq : BitVec 1) (rl : BitVec 1) : Statement (.amoaddD rd rs1 rs2 aq rl) :=
  build5_back _ (by decide) (by decide) (by decide) (by decide) (by decide) _ _ _ _ _
theorem amoxorD (rd : BitVec 5) (rs1 : BitVec 5) (rs2 : BitVec 5) (aq : BitVec 1) (rl : BitVec 1) : Statement (.amoxorD rd rs1 rs2 aq rl) :=
  build5_back _ (by decide) (by decide) (by decide) (by decide) (by decide) _ _ _ _ _
theorem amoandD (rd : BitVec 5) (rs1 : BitVec 5) (rs2 : BitVec 5) (aq : BitVec 1) (rl : BitVec 1) : Statement (.amoandD rd rs1 rs2 aq rl) :=
  build5_back _ (by decide) (by decide) (by decide) (by decide) (by decide) _ _ _ _ _
theorem amoorD (rd : BitVec 5) (rs1 : BitVec 5) (rs2 : BitVec 5) (aq : BitVec 1) (rl : BitVec 1) : Statement (.amoorD rd rs1 rs2 aq rl) :=
  build5_back _ (by decide) (by decide) (by decide) (by decide) (by decide) _ _ _ _ _
theorem amominD (rd : BitVec 5) (rs1 : BitVec 5) (rs2 : BitVec 5) (aq : BitVec 1) (rl : BitVec 1) : Statement (.amominD rd rs1 rs2 aq rl) :=
  build5_back _ (by decide) (by decide) (by decide) (by decide) (by decide) _ _ _ _ _
theorem amomaxD (rd : BitVec 5) (rs1 : BitVec 5) (rs2 : BitVec 5) (aq : BitVec 1) (rl : BitVec 1) : Statement (.amomaxD rd rs1 rs2 aq rl) :=
  build5_back _ (by decide) (by decide) (by decide) (by decide) (by decide) _ _ _ _ _
theorem amominuD (rd : BitVec 5) (rs1 : BitVec 5) (rs2 : BitVec 5) (aq : BitVec 1) (rl : BitVec 1) : Statement (.amominuD rd rs1 rs2 aq rl) :=
  build5_back _ (by decide) (by decide) (by decide) (by decide) (by decide) _ _ _ _ _
theorem amomaxuD (rd : BitVec 5) (rs1 : BitVec 5) (rs2 : BitVec 5) (aq : BitVec 1) (rl : BitVec 1) : Statement (.amomaxuD rd rs1 rs2 aq rl) :=
  build5_back _ (by decide) (by decide) (by decide) (by decide) (by decide) _ _ _ _ _
theorem csrrw (rd : BitVec 5) (rs1 : BitVec 5) (csr : BitVec 12) : Statement (.csrrw rd rs1 csr) :=
  build3_back _ (by decide) (by decide) (by decide) _ _ _
theorem csrrs (rd : BitVec 5) (rs1 : BitVec 5) (csr : BitVec 12) : Statement (.csrrs rd rs1 csr) :=
  build3_back _ (by decide) (by decide) (by decide) _ _ _
theorem csrrc (rd : BitVec 5) (rs1 : BitVec 5) (csr : BitVec 12) : Statement (.csrrc rd rs1 csr) :=
  build3_back _ (by decide) (by decide) (by decide) _ _ _
theorem csrrwi (rd : BitVec 5) (uimm : BitVec 5) (csr : BitVec 12) : Statement (.csrrwi rd uimm csr) :=
  build3_back _ (by decide) (by decide) (by decide) _ _ _
theorem csrrsi (rd : BitVec 5) (uimm : BitVec 5) (csr : BitVec 12) : Statement (.csrrsi rd uimm csr) :=
  build3_back _ (by decide) (by decide) (by decide) _ _ _
theorem csrrci (rd : BitVec 5) (uimm : BitVec 5) (csr : BitVec 12) : Statement (.csrrci rd uimm csr) :=
  build3_back _ (by decide) (by decide) (by decide) _ _ _
theorem fence (fm : BitVec 4) (pred : BitVec 4) (succ : BitVec 4) (rs1 : BitVec 5) (rd : BitVec 5) : Statement (.fence fm pred succ rs1 rd) :=
  build5_back _ (by decide) (by decide) (by decide) (by decide) (by decide) _ _ _ _ _
theorem fenceI (imm : BitVec 12) (rs1 : BitVec 5) (rd : BitVec 5) : Statement (.fenceI imm rs1 rd) :=
  build3_back _ (by decide) (by decide) (by decide) _ _ _
theorem ecall : Statement .ecall := rfl
theorem ebreak : Statement .ebreak := rfl
theorem sret : Statement .sret := rfl
theorem mret : Statement .mret := rfl
theorem wfi : Statement .wfi := rfl
theorem sfenceVma (rs1 : BitVec 5) (rs2 : BitVec 5) : Statement (.sfenceVma rs1 rs2) :=
  build2_back _ (by decide) (by decide) _ _
theorem cAddi4spn (rdP : BitVec 3) (imm : BitVec 10) : Statement (.cAddi4spn rdP imm) :=
  build2_back _ (by decide) (by decide) _ _
theorem cFld (rdP : BitVec 3) (rs1P : BitVec 3) (imm : BitVec 8) : Statement (.cFld rdP rs1P imm) :=
  build3_back _ (by decide) (by decide) (by decide) _ _ _
theorem cLw (rdP : BitVec 3) (rs1P : BitVec 3) (imm : BitVec 7) : Statement (.cLw rdP rs1P imm) :=
  build3_back _ (by decide) (by decide) (by decide) _ _ _
theorem cLd (rdP : BitVec 3) (rs1P : BitVec 3) (imm : BitVec 8) : Statement (.cLd rdP rs1P imm) :=
  build3_back _ (by decide) (by decide) (by decide) _ _ _
theorem cFsd (rs2P : BitVec 3) (rs1P : BitVec 3) (imm : BitVec 8) : Statement (.cFsd rs2P rs1P imm) :=
  build3_back _ (by decide) (by decide) (by decide) _ _ _
theorem cSw (rs2P : BitVec 3) (rs1P : BitVec 3) (imm : BitVec 7) : Statement (.cSw rs2P rs1P imm) :=
  build3_back _ (by decide) (by decide) (by decide) _ _ _
theorem cSd (rs2P : BitVec 3) (rs1P : BitVec 3) (imm : BitVec 8) : Statement (.cSd rs2P rs1P imm) :=
  build3_back _ (by decide) (by decide) (by decide) _ _ _
theorem cAddi (rd : BitVec 5) (imm : BitVec 6) : Statement (.cAddi rd imm) :=
  build2_back _ (by decide) (by decide) _ _
theorem cAddiw (rd : BitVec 5) (imm : BitVec 6) : Statement (.cAddiw rd imm) :=
  build2_back _ (by decide) (by decide) _ _
theorem cLi (rd : BitVec 5) (imm : BitVec 6) : Statement (.cLi rd imm) := build2_back _ (by decide) (by decide) _ _
theorem cAddi16sp (imm : BitVec 10) : Statement (.cAddi16sp imm) := build1_back _ (by decide) _
theorem cLui (rd : BitVec 5) (imm : BitVec 18) : Statement (.cLui rd imm) := build2_back _ (by decide) (by decide) _ _
theorem cSrli (rdP : BitVec 3) (shamt : BitVec 6) : Statement (.cSrli rdP shamt) :=
  build2_back _ (by decide) (by decide) _ _
theorem cSrai (rdP : BitVec 3) (shamt : BitVec 6) : Statement (.cSrai rdP shamt) :=
  build2_back _ (by decide) (by decide) _ _
theorem cAndi (rdP : BitVec 3) (imm : BitVec 6) : Statement (.cAndi rdP imm) :=
  build2_back _ (by decide) (by decide) _ _
theorem cSub (rdP : BitVec 3) (rs2P : BitVec 3) : Statement (.cSub rdP rs2P) :=
  build2_back _ (by decide) (by decide) _ _
theorem cXor (rdP : BitVec 3) (rs2P : BitVec 3) : Statement (.cXor rdP rs2P) :=
  build2_back _ (by decide) (by decide) _ _
theorem cOr (rdP : BitVec 3) (rs2P : BitVec 3) : Statement (.cOr rdP rs2P) :=
  build2_back _ (by decide) (by decide) _ _
theorem cAnd (rdP : BitVec 3) (rs2P : BitVec 3) : Statement (.cAnd rdP rs2P) :=
  build2_back _ (by decide) (by decide) _ _
theorem cSubw (rdP : BitVec 3) (rs2P : BitVec 3) : Statement (.cSubw rdP rs2P) :=
  build2_back _ (by decide) (by decide) _ _
theorem cAddw (rdP : BitVec 3) (rs2P : BitVec 3) : Statement (.cAddw rdP rs2P) :=
  build2_back _ (by decide) (by decide) _ _
theorem cJ (imm : BitVec 12) : Statement (.cJ imm) := build1_back _ (by decide) _
theorem cBeqz (rs1P : BitVec 3) (imm : BitVec 9) : Statement (.cBeqz rs1P imm) :=
  build2_back _ (by decide) (by decide) _ _
theorem cBnez (rs1P : BitVec 3) (imm : BitVec 9) : Statement (.cBnez rs1P imm) :=
  build2_back _ (by decide) (by decide) _ _
theorem cSlli (rd : BitVec 5) (shamt : BitVec 6) : Statement (.cSlli rd shamt) :=
  build2_back _ (by decide) (by decide) _ _
theorem cFldsp (rd : BitVec 5) (imm : BitVec 9) : Statement (.cFldsp rd imm) :=
  build2_back _ (by decide) (by decide) _ _
theorem cLwsp (rd : BitVec 5) (imm : BitVec 8) : Statement (.cLwsp rd imm) :=
  build2_back _ (by decide) (by decide) _ _
theorem cLdsp (rd : BitVec 5) (imm : BitVec 9) : Statement (.cLdsp rd imm) :=
  build2_back _ (by decide) (by decide) _ _
theorem cJr (rs1 : BitVec 5) : Statement (.cJr rs1) := build1_back _ (by decide) _
theorem cMv (rd : BitVec 5) (rs2 : BitVec 5) : Statement (.cMv rd rs2) := build2_back _ (by decide) (by decide) _ _
theorem cEbreak : Statement .cEbreak := rfl
theorem cJalr (rs1 : BitVec 5) : Statement (.cJalr rs1) := build1_back _ (by decide) _
theorem cAdd (rd : BitVec 5) (rs2 : BitVec 5) : Statement (.cAdd rd rs2) := build2_back _ (by decide) (by decide) _ _
theorem cFsdsp (rs2 : BitVec 5) (imm : BitVec 9) : Statement (.cFsdsp rs2 imm) :=
  build2_back _ (by decide) (by decide) _ _
theorem cSwsp (rs2 : BitVec 5) (imm : BitVec 8) : Statement (.cSwsp rs2 imm) :=
  build2_back _ (by decide) (by decide) _ _
theorem cSdsp (rs2 : BitVec 5) (imm : BitVec 9) : Statement (.cSdsp rs2 imm) :=
  build2_back _ (by decide) (by decide) _ _
theorem flw (rd : BitVec 5) (rs1 : BitVec 5) (imm : BitVec 12) : Statement (.flw rd rs1 imm) :=
  build3_back _ (by decide) (by decide) (by decide) _ _ _
theorem fld (rd : BitVec 5) (rs1 : BitVec 5) (imm : BitVec 12) : Statement (.fld rd rs1 imm) :=
  build3_back _ (by decide) (by decide) (by decide) _ _ _
theorem fsw (rs1 : BitVec 5) (rs2 : BitVec 5) (imm : BitVec 12) : Statement (.fsw rs1 rs2 imm) :=
  build3_back _ (by decide) (by decide) (by decide) _ _ _
theorem fsd (rs1 : BitVec 5) (rs2 : BitVec 5) (imm : BitVec 12) : Statement (.fsd rs1 rs2 imm) :=
  build3_back _ (by decide) (by decide) (by decide) _ _ _
theorem fmvXW (rd : BitVec 5) (rs1 : BitVec 5) : Statement (.fmvXW rd rs1) :=
  build2_back _ (by decide) (by decide) _ _
theorem fmvWX (rd : BitVec 5) (rs1 : BitVec 5) : Statement (.fmvWX rd rs1) :=
  build2_back _ (by decide) (by decide) _ _
theorem fmvXD (rd : BitVec 5) (rs1 : BitVec 5) : Statement (.fmvXD rd rs1) :=
  build2_back _ (by decide) (by decide) _ _
theorem fmvDX (rd : BitVec 5) (rs1 : BitVec 5) : Statement (.fmvDX rd rs1) :=
  build2_back _ (by decide) (by decide) _ _
theorem faddS (rd : BitVec 5) (rs1 : BitVec 5) (rs2 : BitVec 5) (rm : BitVec 3) : Statement (.faddS rd rs1 rs2 rm) :=
  build4_back _ (by decide) (by decide) (by decide) (by decide) _ _ _ _
theorem fsubS (rd : BitVec 5) (rs1 : BitVec 5) (rs2 : BitVec 5) (rm : BitVec 3) : Statement (.fsubS rd rs1 rs2 rm) :=
  build4_back _ (by decide) (by decide) (by decide) (by decide) _ _ _ _
theorem fmulS (rd : BitVec 5) (rs1 : BitVec 5) (rs2 : BitVec 5) (rm : BitVec 3) : Statement (.fmulS rd rs1 rs2 rm) :=
  build4_back _ (by decide) (by decide) (by decide) (by decide) _ _ _ _
theorem fdivS (rd : BitVec 5) (rs1 : BitVec 5) (rs2 : BitVec 5) (rm : BitVec 3) : Statement (.fdivS rd rs1 rs2 rm) :=
  build4_back _ (by decide) (by decide) (by decide) (by decide) _ _ _ _
theorem fsqrtS (rd : BitVec 5) (rs1 : BitVec 5) (rm : BitVec 3) : Statement (.fsqrtS rd rs1 rm) :=
  build3_back _ (by decide) (by decide) (by decide) _ _ _
theorem fsgnjS (rd : BitVec 5) (rs1 : BitVec 5) (rs2 : BitVec 5) : Statement (.fsgnjS rd rs1 rs2) :=
  build3_back _ (by decide) (by decide) (by decide) _ _ _
theorem fsgnjnS (rd : BitVec 5) (rs1 : BitVec 5) (rs2 : BitVec 5) : Statement (.fsgnjnS rd rs1 rs2) :=
  build3_back _ (by decide) (by decide) (by decide) _ _ _
theorem fsgnjxS (rd : BitVec 5) (rs1 : BitVec 5) (rs2 : BitVec 5) : Statement (.fsgnjxS rd rs1 rs2) :=
  build3_back _ (by decide) (by decide) (by decide) _ _ _
theorem fminS (rd : BitVec 5) (rs1 : BitVec 5) (rs2 : BitVec 5) : Statement (.fminS rd rs1 rs2) :=
  build3_back _ (by decide) (by decide) (by decide) _ _ _
theorem fmaxS (rd : BitVec 5) (rs1 : BitVec 5) (rs2 : BitVec 5) : Statement (.fmaxS rd rs1 rs2) :=
  build3_back _ (by decide) (by decide) (by decide) _ _ _
theorem feqS (rd : BitVec 5) (rs1 : BitVec 5) (rs2 : BitVec 5) : Statement (.feqS rd rs1 rs2) :=
  build3_back _ (by decide) (by decide) (by decide) _ _ _
theorem fltS (rd : BitVec 5) (rs1 : BitVec 5) (rs2 : BitVec 5) : Statement (.fltS rd rs1 rs2) :=
  build3_back _ (by decide) (by decide) (by decide) _ _ _
theorem fleS (rd : BitVec 5) (rs1 : BitVec 5) (rs2 : BitVec 5) : Statement (.fleS rd rs1 rs2) :=
  build3_back _ (by decide) (by decide) (by decide) _ _ _
theorem fclassS (rd : BitVec 5) (rs1 : BitVec 5) : Statement (.fclassS rd rs1) :=
  build2_back _ (by decide) (by decide) _ _
theorem fcvtWS (rd : BitVec 5) (rs1 : BitVec 5) (rm : BitVec 3) : Statement (.fcvtWS rd rs1 rm) :=
  build3_back _ (by decide) (by decide) (by decide) _ _ _
theorem fcvtWuS (rd : BitVec 5) (rs1 : BitVec 5) (rm : BitVec 3) : Statement (.fcvtWuS rd rs1 rm) :=
  build3_back _ (by decide) (by decide) (by decide) _ _ _
theorem fcvtLS (rd : BitVec 5) (rs1 : BitVec 5) (rm : BitVec 3) : Statement (.fcvtLS rd rs1 rm) :=
  build3_back _ (by decide) (by decide) (by decide) _ _ _
theorem fcvtLuS (rd : BitVec 5) (rs1 : BitVec 5) (rm : BitVec 3) : Statement (.fcvtLuS rd rs1 rm) :=
  build3_back _ (by decide) (by decide) (by decide) _ _ _
theorem fcvtSW (rd : BitVec 5) (rs1 : BitVec 5) (rm : BitVec 3) : Statement (.fcvtSW rd rs1 rm) :=
  build3_back _ (by decide) (by decide) (by decide) _ _ _
theorem fcvtSWu (rd : BitVec 5) (rs1 : BitVec 5) (rm : BitVec 3) : Statement (.fcvtSWu rd rs1 rm) :=
  build3_back _ (by decide) (by decide) (by decide) _ _ _
theorem fcvtSL (rd : BitVec 5) (rs1 : BitVec 5) (rm : BitVec 3) : Statement (.fcvtSL rd rs1 rm) :=
  build3_back _ (by decide) (by decide) (by decide) _ _ _
theorem fcvtSLu (rd : BitVec 5) (rs1 : BitVec 5) (rm : BitVec 3) : Statement (.fcvtSLu rd rs1 rm) :=
  build3_back _ (by decide) (by decide) (by decide) _ _ _
theorem faddD (rd : BitVec 5) (rs1 : BitVec 5) (rs2 : BitVec 5) (rm : BitVec 3) : Statement (.faddD rd rs1 rs2 rm) :=
  build4_back _ (by decide) (by decide) (by decide) (by decide) _ _ _ _
theorem fsubD (rd : BitVec 5) (rs1 : BitVec 5) (rs2 : BitVec 5) (rm : BitVec 3) : Statement (.fsubD rd rs1 rs2 rm) :=
  build4_back _ (by decide) (by decide) (by decide) (by decide) _ _ _ _
theorem fmulD (rd : BitVec 5) (rs1 : BitVec 5) (rs2 : BitVec 5) (rm : BitVec 3) : Statement (.fmulD rd rs1 rs2 rm) :=
  build4_back _ (by decide) (by decide) (by decide) (by decide) _ _ _ _
theorem fdivD (rd : BitVec 5) (rs1 : BitVec 5) (rs2 : BitVec 5) (rm : BitVec 3) : Statement (.fdivD rd rs1 rs2 rm) :=
  build4_back _ (by decide) (by decide) (by decide) (by decide) _ _ _ _
theorem fsqrtD (rd : BitVec 5) (rs1 : BitVec 5) (rm : BitVec 3) : Statement (.fsqrtD rd rs1 rm) :=
  build3_back _ (by decide) (by decide) (by decide) _ _ _
theorem fsgnjD (rd : BitVec 5) (rs1 : BitVec 5) (rs2 : BitVec 5) : Statement (.fsgnjD rd rs1 rs2) :=
  build3_back _ (by decide) (by decide) (by decide) _ _ _
theorem fsgnjnD (rd : BitVec 5) (rs1 : BitVec 5) (rs2 : BitVec 5) : Statement (.fsgnjnD rd rs1 rs2) :=
  build3_back _ (by decide) (by decide) (by decide) _ _ _
theorem fsgnjxD (rd : BitVec 5) (rs1 : BitVec 5) (rs2 : BitVec 5) : Statement (.fsgnjxD rd rs1 rs2) :=
  build3_back _ (by decide) (by decide) (by decide) _ _ _
theorem fminD (rd : BitVec 5) (rs1 : BitVec 5) (rs2 : BitVec 5) : Statement (.fminD rd rs1 rs2) :=
  build3_back _ (by decide) (by decide) (by decide) _ _ _
theorem fmaxD (rd : BitVec 5) (rs1 : BitVec 5) (rs2 : BitVec 5) : Statement (.fmaxD rd rs1 rs2) :=
  build3_back _ (by decide) (by decide) (by decide) _ _ _
theorem feqD (rd : BitVec 5) (rs1 : BitVec 5) (rs2 : BitVec 5) : Statement (.feqD rd rs1 rs2) :=
  build3_back _ (by decide) (by decide) (by decide) _ _ _
theorem fltD (rd : BitVec 5) (rs1 : BitVec 5) (rs2 : BitVec 5) : Statement (.fltD rd rs1 rs2) :=
  build3_back _ (by decide) (by decide) (by decide) _ _ _
theorem fleD (rd : BitVec 5) (rs1 : BitVec 5) (rs2 : BitVec 5) : Statement (.fleD rd rs1 rs2) :=
  build3_back _ (by decide) (by decide) (by decide) _ _ _
theorem fclassD (rd : BitVec 5) (rs1 : BitVec 5) : Statement (.fclassD rd rs1) :=
  build2_back _ (by decide) (by decide) _ _
theorem fcvtWD (rd : BitVec 5) (rs1 : BitVec 5) (rm : BitVec 3) : Statement (.fcvtWD rd rs1 rm) :=
  build3_back _ (by decide) (by decide) (by decide) _ _ _
theorem fcvtWuD (rd : BitVec 5) (rs1 : BitVec 5) (rm : BitVec 3) : Statement (.fcvtWuD rd rs1 rm) :=
  build3_back _ (by decide) (by decide) (by decide) _ _ _
theorem fcvtLD (rd : BitVec 5) (rs1 : BitVec 5) (rm : BitVec 3) : Statement (.fcvtLD rd rs1 rm) :=
  build3_back _ (by decide) (by decide) (by decide) _ _ _
theorem fcvtLuD (rd : BitVec 5) (rs1 : BitVec 5) (rm : BitVec 3) : Statement (.fcvtLuD rd rs1 rm) :=
  build3_back _ (by decide) (by decide) (by decide) _ _ _
theorem fcvtDW (rd : BitVec 5) (rs1 : BitVec 5) (rm : BitVec 3) : Statement (.fcvtDW rd rs1 rm) :=
  build3_back _ (by decide) (by decide) (by decide) _ _ _
theorem fcvtDWu (rd : BitVec 5) (rs1 : BitVec 5) (rm : BitVec 3) : Statement (.fcvtDWu rd rs1 rm) :=
  build3_back _ (by decide) (by decide) (by decide) _ _ _
theorem fcvtDL (rd : BitVec 5) (rs1 : BitVec 5) (rm : BitVec 3) : Statement (.fcvtDL rd rs1 rm) :=
  build3_back _ (by decide) (by decide) (by decide) _ _ _
theorem fcvtDLu (rd : BitVec 5) (rs1 : BitVec 5) (rm : BitVec 3) : Statement (.fcvtDLu rd rs1 rm) :=
  build3_back _ (by decide) (by decide) (by decide) _ _ _
theorem fcvtSD (rd : BitVec 5) (rs1 : BitVec 5) (rm : BitVec 3) : Statement (.fcvtSD rd rs1 rm) :=
  build3_back _ (by decide) (by decide) (by decide) _ _ _
theorem fcvtDS (rd : BitVec 5) (rs1 : BitVec 5) (rm : BitVec 3) : Statement (.fcvtDS rd rs1 rm) :=
  build3_back _ (by decide) (by decide) (by decide) _ _ _
theorem fmaddS (rd : BitVec 5) (rs1 : BitVec 5) (rs2 : BitVec 5) (rs3 : BitVec 5) (rm : BitVec 3) : Statement (.fmaddS rd rs1 rs2 rs3 rm) :=
  build5_back _ (by decide) (by decide) (by decide) (by decide) (by decide) _ _ _ _ _
theorem fmsubS (rd : BitVec 5) (rs1 : BitVec 5) (rs2 : BitVec 5) (rs3 : BitVec 5) (rm : BitVec 3) : Statement (.fmsubS rd rs1 rs2 rs3 rm) :=
  build5_back _ (by decide) (by decide) (by decide) (by decide) (by decide) _ _ _ _ _
theorem fnmsubS (rd : BitVec 5) (rs1 : BitVec 5) (rs2 : BitVec 5) (rs3 : BitVec 5) (rm : BitVec 3) : Statement (.fnmsubS rd rs1 rs2 rs3 rm) :=
  build5_back _ (by decide) (by decide) (by decide) (by decide) (by decide) _ _ _ _ _
theorem fnmaddS (rd : BitVec 5) (rs1 : BitVec 5) (rs2 : BitVec 5) (rs3 : BitVec 5) (rm : BitVec 3) : Statement (.fnmaddS rd rs1 rs2 rs3 rm) :=
  build5_back _ (by decide) (by decide) (by decide) (by decide) (by decide) _ _ _ _ _
theorem fmaddD (rd : BitVec 5) (rs1 : BitVec 5) (rs2 : BitVec 5) (rs3 : BitVec 5) (rm : BitVec 3) : Statement (.fmaddD rd rs1 rs2 rs3 rm) :=
  build5_back _ (by decide) (by decide) (by decide) (by decide) (by decide) _ _ _ _ _
theorem fmsubD (rd : BitVec 5) (rs1 : BitVec 5) (rs2 : BitVec 5) (rs3 : BitVec 5) (rm : BitVec 3) : Statement (.fmsubD rd rs1 rs2 rs3 rm) :=
  build5_back _ (by decide) (by decide) (by decide) (by decide) (by decide) _ _ _ _ _
theorem fnmsubD (rd : BitVec 5) (rs1 : BitVec 5) (rs2 : BitVec 5) (rs3 : BitVec 5) (rm : BitVec 3) : Statement (.fnmsubD rd rs1 rs2 rs3 rm) :=
  build5_back _ (by decide) (by decide) (by decide) (by decide) (by decide) _ _ _ _ _
theorem fnmaddD (rd : BitVec 5) (rs1 : BitVec 5) (rs2 : BitVec 5) (rs3 : BitVec 5) (rm : BitVec 3) : Statement (.fnmaddD rd rs1 rs2 rs3 rm) :=
  build5_back _ (by decide) (by decide) (by decide) (by decide) (by decide) _ _ _ _ _
theorem hfenceVvma (rs1 : BitVec 5) (rs2 : BitVec 5) : Statement (.hfenceVvma rs1 rs2) :=
  build2_back _ (by decide) (by decide) _ _
theorem hfenceGvma (rs1 : BitVec 5) (rs2 : BitVec 5) : Statement (.hfenceGvma rs1 rs2) :=
  build2_back _ (by decide) (by decide) _ _
theorem hlvB (rd : BitVec 5) (rs1 : BitVec 5) : Statement (.hlvB rd rs1) := build2_back _ (by decide) (by decide) _ _
theorem hlvBu (rd : BitVec 5) (rs1 : BitVec 5) : Statement (.hlvBu rd rs1) :=
  build2_back _ (by decide) (by decide) _ _
theorem hlvH (rd : BitVec 5) (rs1 : BitVec 5) : Statement (.hlvH rd rs1) := build2_back _ (by decide) (by decide) _ _
theorem hlvHu (rd : BitVec 5) (rs1 : BitVec 5) : Statement (.hlvHu rd rs1) :=
  build2_back _ (by decide) (by decide) _ _
theorem hlvxHu (rd : BitVec 5) (rs1 : BitVec 5) : Statement (.hlvxHu rd rs1) :=
  build2_back _ (by decide) (by decide) _ _
theorem hlvW (rd : BitVec 5) (rs1 : BitVec 5) : Statement (.hlvW rd rs1) := build2_back _ (by decide) (by decide) _ _
theorem hlvWu (rd : BitVec 5) (rs1 : BitVec 5) : Statement (.hlvWu rd rs1) :=
  build2_back _ (by decide) (by decide) _ _
theorem hlvxWu (rd : BitVec 5) (rs1 : BitVec 5) : Statement (.hlvxWu rd rs1) :=
  build2_back _ (by decide) (by decide) _ _
theorem hlvD (rd : BitVec 5) (rs1 : BitVec 5) : Statement (.hlvD rd rs1) := build2_back _ (by decide) (by decide) _ _
theorem hsvB (rs1 : BitVec 5) (rs2 : BitVec 5) : Statement (.hsvB rs1 rs2) :=
  build2_back _ (by decide) (by decide) _ _
theorem hsvH (rs1 : BitVec 5) (rs2 : BitVec 5) : Statement (.hsvH rs1 rs2) :=
  build2_back _ (by decide) (by decide) _ _
theorem hsvW (rs1 : BitVec 5) (rs2 : BitVec 5) : Statement (.hsvW rs1 rs2) :=
  build2_back _ (by decide) (by decide) _ _
theorem hsvD (rs1 : BitVec 5) (rs2 : BitVec 5) : Statement (.hsvD rs1 rs2) :=
  build2_back _ (by decide) (by decide) _ _
theorem cboInval (rs1 : BitVec 5) : Statement (.cboInval rs1) := build1_back _ (by decide) _
theorem cboClean (rs1 : BitVec 5) : Statement (.cboClean rs1) := build1_back _ (by decide) _
theorem cboFlush (rs1 : BitVec 5) : Statement (.cboFlush rs1) := build1_back _ (by decide) _
theorem cboZero (rs1 : BitVec 5) : Statement (.cboZero rs1) := build1_back _ (by decide) _
theorem vectorOp : Statement .vectorOp := rfl
theorem vectorLoadW8 : Statement .vectorLoadW8 := rfl
theorem vectorLoadW16 : Statement .vectorLoadW16 := rfl
theorem vectorLoadW32 : Statement .vectorLoadW32 := rfl
theorem vectorLoadW64 : Statement .vectorLoadW64 := rfl
theorem vectorStoreW8 : Statement .vectorStoreW8 := rfl
theorem vectorStoreW16 : Statement .vectorStoreW16 := rfl
theorem vectorStoreW32 : Statement .vectorStoreW32 := rfl
theorem vectorStoreW64 : Statement .vectorStoreW64 := rfl

end Sys2Proof.Laws.OperandsRebuild
end

