-- ==== Sys2Proof/Laws/Registry.lean ====
section
/-! SUPPORT. The registry (R180 to R187, R198): the default table is accepted and every handler reads its own row's operands, the
check of two definitions finds exactly the pairs that match one word, and what a table that is refused, or accepted, has. -/

namespace Sys2Proof

/-- The handler of a row of the default table reads the row's operands, in the row's order. -/
theorem handlerValues_row (op : Op) (word : Insn) : (row op).handlerValues word = (row op).operandValues word := by
  cases op <;> rfl

/-- A definition of the default table is the row of its own identifier. -/
theorem row_of_mem_table {d : Definition} (h : d ∈ table) : d = row d.op := by
  have key : ∀ op : Op, (row op).op = op := by intro op; cases op <;> rfl
  obtain ⟨op, -, rfl⟩ := List.mem_map.mp h
  rw [key]

/-- Every definition of the default table is well formed and has its handler. -/
theorem wellFormed_default : (table.all fun d => d.wellFormed && d.handled) = true := by decide +kernel

/-- No two definitions of the default table match one word (R185). -/
theorem pairwiseApart_default : Registry.pairwiseApart table = true := by decide +kernel

/-- The registry accepts the default table (R185). -/
theorem accepts_default : Registry.accepts table = true := by
  rw [Registry.accepts, wellFormed_default, pairwiseApart_default]; rfl

/-- A table with a definition that is malformed or has no handler is not accepted (R180, R198). -/
theorem accepts_eq_false_of_mem {t : List Definition} {d : Definition} (hd : d ∈ t)
    (h : (d.wellFormed && d.handled) = false) : Registry.accepts t = false := by
  rw [Registry.accepts, Bool.and_eq_false_iff]
  exact .inl (List.all_eq_false.mpr ⟨d, hd, by simp [h]⟩)

/-- A bit of an OR over a list is a bit of one of its parts. -/
theorem getLsbD_foldl_or {α : Type} (f : α → Insn) (l : List α) (i : Nat) :
    (l.foldl (fun acc x => acc ||| f x) 0).getLsbD i = l.any fun x => (f x).getLsbD i := by
  have key : ∀ a : Insn, (l.foldl (fun acc x => acc ||| f x) a).getLsbD i =
      (a.getLsbD i || l.any fun x => (f x).getLsbD i) := by
    induction l with
    | nil => simp
    | cons x xs ih => intro a; rw [List.foldl_cons, ih]; simp [Bool.or_assoc]
  rw [key]; simp

/-- A value that an operand reads has no bit but those its segments produce (R183). -/
theorem decode_covered (o : Operand) (w : Insn) (i : Nat) (h : (o.decode w).getLsbD i = true) :
    o.cover.getLsbD i = true := by
  rw [Operand.decode, getLsbD_foldl_or] at h
  rw [Operand.cover, getLsbD_foldl_or]
  obtain ⟨s, hs, hb⟩ := List.any_eq_true.mp h
  refine List.any_eq_true.mpr ⟨s, hs, ?_⟩
  simp only [Segment.take, BitVec.getLsbD_shiftLeft, BitVec.getLsbD_and, Bool.and_eq_true] at hb ⊢
  exact ⟨hb.1, hb.2.2⟩

/-- Each value the handler of an accepted definition reads is one that the operand of its row can have. -/
theorem handlerValues_covered {d : Definition} (h : d.handled = true) (w : Insn) :
    List.Forall₂ (fun o v => v &&& ~~~o.cover = 0) (row d.op).operands (d.handlerValues w) := by
  unfold Definition.handlerValues
  rw [List.forall₂_map_right_iff, List.forall₂_same]
  intro o ho
  have h1 := List.all_eq_true.mp h o ho
  cases ho' : d.operand o.label with
  | none => simp
  | some o' =>
    have h3 : o'.cover &&& ~~~o.cover = 0 := by simpa [ho'] using h1
    refine BitVec.eq_of_getLsbD_eq fun i hi => ?_
    have e3 := congrArg (fun x : Insn => x.getLsbD i) h3
    have e2 := decode_covered o' w i
    simp only [BitVec.getLsbD_and, BitVec.getLsbD_not, hi, decide_true, Bool.true_and] at e3 ⊢
    revert e2 e3
    cases (o'.decode w).getLsbD i <;> cases o'.cover.getLsbD i <;> cases o.cover.getLsbD i <;> simp

/-! ### Whether two definitions match one word (R184, R185) -/

/-- Each bit a segment takes is a bit of the word inside the segment. -/
theorem getLsbD_take (s : Segment) (w : Insn) (i : Nat) :
    (s.take w).getLsbD i = true ↔
      (i < 32 ∧ s.shift ≤ i ∧ (ones s.size).getLsbD (i - s.shift) = true) ∧ w.getLsbD (s.lo + (i - s.shift)) = true := by
  simp only [Segment.take, BitVec.getLsbD_shiftLeft, BitVec.getLsbD_and, BitVec.getLsbD_ushiftRight, Bool.and_eq_true,
    Bool.not_eq_true', decide_eq_true_eq, decide_eq_false_iff_not, Nat.not_lt]
  tauto

/-- Each bit of an operand's value is a bit of the word inside the span. -/
theorem getLsbD_decode (o : Operand) (w : Insn) (i : Nat) :
    (o.decode w).getLsbD i = true ↔ ∃ s ∈ o.segments,
      (i < 32 ∧ s.shift ≤ i ∧ (ones s.size).getLsbD (i - s.shift) = true) ∧ w.getLsbD (s.lo + (i - s.shift)) = true := by
  rw [Operand.decode, getLsbD_foldl_or, List.any_eq_true]
  exact exists_congr fun s => and_congr_right fun _ => getLsbD_take s w i

/-- A word with more bits gives a value with more bits. -/
theorem decode_mono (o : Operand) {w w' : Insn} (h : ∀ j, w.getLsbD j = true → w'.getLsbD j = true) (i : Nat)
    (hi : (o.decode w).getLsbD i = true) : (o.decode w').getLsbD i = true := by
  rw [getLsbD_decode] at hi ⊢
  obtain ⟨s, hs, hr, hb⟩ := hi
  exact ⟨s, hs, hr, h _ hb⟩

/-- An operand reads only the bits of its span. -/
theorem decode_congr (o : Operand) {w w' : Insn} (h : ∀ j, o.span.getLsbD j = true → w.getLsbD j = w'.getLsbD j) :
    o.decode w = o.decode w' := by
  refine BitVec.eq_of_getLsbD_eq fun i _ => ?_
  rw [Bool.eq_iff_iff, getLsbD_decode, getLsbD_decode]
  refine exists_congr fun s => and_congr_right fun hs => and_congr_right fun hr => ?_
  by_cases hj : s.lo + (i - s.shift) < 32
  · rw [h]
    rw [Operand.span, getLsbD_foldl_or, List.any_eq_true]
    refine ⟨s, hs, ?_⟩
    rw [BitVec.getLsbD_shiftLeft, show s.lo + (i - s.shift) - s.lo = i - s.shift by omega]
    simp [hj, hr.2.2]
  · rw [BitVec.getLsbD_of_ge _ _ (by omega), BitVec.getLsbD_of_ge _ _ (by omega)]

/-- An operand whose value is surely excluded reads an excluded value in every word with the known bits. -/
theorem not_admits_of_surelyExcluded {o : Operand} {known bits w : Insn} (h : o.surelyExcluded known bits = true)
    (hs : ∀ j, bits.getLsbD j = true → known.getLsbD j = true)
    (hw : ∀ j, known.getLsbD j = true → w.getLsbD j = bits.getLsbD j) : o.admits (o.decode w) = false := by
  simp only [Operand.surelyExcluded, Bool.and_eq_true, beq_iff_eq, Bool.not_eq_true'] at h
  have : o.decode w = o.decode bits := by
    refine BitVec.eq_of_getLsbD_eq fun i _ => Bool.eq_iff_iff.mpr ⟨fun hi => ?_, decode_mono o (fun j hj => ?_) i⟩
    · rw [h.1]
      refine decode_mono o (fun j hj => ?_) i hi
      have hlt := BitVec.lt_of_getLsbD hj
      rw [BitVec.getLsbD_or, BitVec.getLsbD_not, decide_eq_true hlt]
      cases hk : known.getLsbD j with
      | false => simp
      | true => rw [← hw j hk, hj]; rfl
    · rw [hw j (hs j hj), hj]
  rw [this, h.2]

/-- The search finds a word exactly if there is one. -/
theorem someWordAdmits_iff (os : List Operand) : ∀ (ps : List Nat) (known bits : Insn), ps.Nodup →
    (∀ p ∈ ps, p < 32 ∧ known.getLsbD p = false) → (∀ j, bits.getLsbD j = true → known.getLsbD j = true) →
    (∀ o ∈ os, ∀ j, o.span.getLsbD j = true → known.getLsbD j = true ∨ j ∈ ps) →
    (someWordAdmits os ps known bits = true ↔
      ∃ w : Insn, (∀ j, known.getLsbD j = true → w.getLsbD j = bits.getLsbD j) ∧ ∀ o ∈ os, o.admits (o.decode w) = true) := by
  intro ps
  induction ps with
  | nil =>
    intro known bits _ _ _ hspan
    rw [someWordAdmits, List.all_eq_true]
    refine ⟨fun h => ⟨bits, fun _ _ => rfl, h⟩, fun ⟨w, hw, h⟩ o ho => ?_⟩
    rw [← decode_congr o fun j hj => hw j ((hspan o ho j hj).resolve_right List.not_mem_nil)]
    exact h o ho
  | cons p ps ih =>
    intro known bits hnd hp hsub hspan
    rw [List.nodup_cons] at hnd
    obtain ⟨hp32, hpk⟩ := hp p List.mem_cons_self
    have hbit : ∀ j, (BitVec.twoPow 32 p).getLsbD j = decide (j = p) := by
      intro j
      rw [BitVec.getLsbD_twoPow, decide_eq_true hp32, Bool.true_and]
      exact decide_eq_decide.mpr eq_comm
    have hk : ∀ j, (known ||| .twoPow 32 p).getLsbD j = (known.getLsbD j || decide (j = p)) := fun j => by
      rw [BitVec.getLsbD_or, hbit]
    have hb : ∀ j, (bits ||| .twoPow 32 p).getLsbD j = (bits.getLsbD j || decide (j = p)) := fun j => by
      rw [BitVec.getLsbD_or, hbit]
    have hp' : ∀ q ∈ ps, q < 32 ∧ (known ||| .twoPow 32 p).getLsbD q = false := fun q hq => by
      have hne : q ≠ p := fun h => hnd.1 (h ▸ hq)
      exact ⟨(hp q (List.mem_cons_of_mem _ hq)).1, by rw [hk, (hp q (List.mem_cons_of_mem _ hq)).2]; simp [hne]⟩
    have hspan' : ∀ o ∈ os, ∀ j, o.span.getLsbD j = true → (known ||| .twoPow 32 p).getLsbD j = true ∨ j ∈ ps :=
      fun o ho j hj => by
        rw [hk]
        rcases hspan o ho j hj with h | h
        · simp [h]
        · rcases List.mem_cons.mp h with rfl | h
          · simp
          · exact .inr h
    have h0 := ih (known ||| .twoPow 32 p) bits hnd.2 hp' (fun j hj => by rw [hk, hsub j hj]; rfl) hspan'
    have h1 := ih (known ||| .twoPow 32 p) (bits ||| .twoPow 32 p) hnd.2 hp'
      (fun j hj => by
        rw [hb, Bool.or_eq_true] at hj; rw [hk, Bool.or_eq_true]; exact hj.imp_left (hsub j)) hspan'
    have hbp : bits.getLsbD p = false := by
      cases h : bits.getLsbD p with
      | false => rfl
      | true => rw [hsub p h] at hpk; cases hpk
    rw [someWordAdmits, Bool.and_eq_true, Bool.or_eq_true, h0, h1]
    constructor
    · rintro ⟨-, ⟨w, hw, ho⟩ | ⟨w, hw, ho⟩⟩
      · exact ⟨w, fun j hj => hw j (by rw [hk, hj]; rfl), ho⟩
      · refine ⟨w, fun j hj => ?_, ho⟩
        have hne : j ≠ p := fun h => by rw [h, hpk] at hj; cases hj
        rw [hw j (by rw [hk, hj]; rfl), hb]; simp [hne]
    · rintro ⟨w, hw, ho⟩
      refine ⟨?_, ?_⟩
      · rw [Bool.not_eq_true', List.any_eq_false]
        intro o hmem hx
        cases (ho o hmem).symm.trans (not_admits_of_surelyExcluded hx hsub hw)
      · cases hwp : w.getLsbD p with
        | false =>
          refine .inl ⟨w, fun j hj => ?_, ho⟩
          rw [hk, Bool.or_eq_true, decide_eq_true_eq] at hj
          rcases hj with hj | rfl
          · exact hw j hj
          · rw [hwp, hbp]
        | true =>
          refine .inr ⟨w, fun j hj => ?_, ho⟩
          rw [hk, Bool.or_eq_true, decide_eq_true_eq] at hj
          rw [hb]
          rcases hj with hj | rfl
          · have hne : j ≠ p := fun h => by rw [h, hpk] at hj; cases hj
            simp [hw j hj, hne]
          · simp [hwp]

/-- A word has a definition's fixed bits. -/
theorem fixedMatch_iff (d : Definition) (w : Insn) :
    d.fixedMatch w = true ↔ ∀ j, (w.getLsbD j && d.mask.getLsbD j) = d.bits.getLsbD j := by
  rw [Definition.fixedMatch, beq_iff_eq]
  refine ⟨fun h j => by rw [← h, BitVec.getLsbD_and], fun h => BitVec.eq_of_getLsbD_eq fun j _ => ?_⟩
  rw [BitVec.getLsbD_and, h]

/-- A definition whose pattern is inside its mask, bit by bit. -/
theorem bits_sub_mask {d : Definition} (h : d.bits &&& ~~~d.mask = 0) (j : Nat) (hj : d.bits.getLsbD j = true) :
    d.mask.getLsbD j = true := by
  have := congrArg (fun x : Insn => x.getLsbD j) h
  have hlt := BitVec.lt_of_getLsbD hj
  simpa [hj, hlt] using this

/-- Two definitions with their patterns inside their masks overlap exactly if some mode and word match both (R185). -/
theorem overlaps_iff {d e : Definition} (hd : d.bits &&& ~~~d.mask = 0) (he : e.bits &&& ~~~e.mask = 0) :
    d.overlaps e = true ↔
      ∃ mode len w, d.matchesWord mode len w = true ∧ e.matchesWord mode len w = true := by
  have hsearch := someWordAdmits_iff (d.excluding e) (d.choices e) (d.mask ||| e.mask) (d.bits ||| e.bits)
    (List.nodup_range.filter _)
    (fun p hp => by
      simp only [Definition.choices, List.mem_filter, List.mem_range, Bool.and_eq_true, Bool.not_eq_true'] at hp
      exact ⟨hp.1, hp.2.1⟩)
    (fun j hj => by
      simp only [BitVec.getLsbD_or, Bool.or_eq_true] at hj ⊢
      exact hj.imp (bits_sub_mask hd j) (bits_sub_mask he j))
    (fun o ho j hj => by
      by_cases hk : (d.mask ||| e.mask).getLsbD j = true
      · exact .inl hk
      · refine .inr ?_
        simp only [Definition.choices, List.mem_filter, List.mem_range, Bool.and_eq_true, Bool.not_eq_true']
        exact ⟨BitVec.lt_of_getLsbD hj, Bool.not_eq_true _ ▸ hk, List.any_eq_true.mpr ⟨o, ho, hj⟩⟩)
  have hex : ∀ w, (∀ o ∈ d.excluding e, o.admits (o.decode w) = true) ↔
      (∀ o ∈ d.operands, o.admits (o.decode w) = true) ∧ ∀ o ∈ e.operands, o.admits (o.decode w) = true := by
    intro w
    have hemp : ∀ o : Operand, o.exclusions.isEmpty = true → o.admits (o.decode w) = true := fun o h => by
      rw [List.isEmpty_iff] at h; simp [Operand.admits, h]
    simp only [Definition.excluding, List.mem_filter, List.mem_append, Bool.not_eq_true']
    constructor
    · intro h
      constructor <;> intro o ho <;> cases hx : o.exclusions.isEmpty
      · exact h o ⟨.inl ho, hx⟩
      · exact hemp o hx
      · exact h o ⟨.inr ho, hx⟩
      · exact hemp o hx
    · rintro ⟨h1, h2⟩ o ⟨ho | ho, -⟩
      · exact h1 o ho
      · exact h2 o ho
  have hmode : ([Priv.user, .supervisor, .machine].any fun mode => d.allows mode && e.allows mode) = true ↔
      ∃ mode, d.allows mode = true ∧ e.allows mode = true := by
    simp only [List.any_eq_true, Bool.and_eq_true]
    refine ⟨fun ⟨m, _, h⟩ => ⟨m, h⟩, fun ⟨m, h⟩ => ⟨m, by cases m <;> simp, h⟩⟩
  rw [Definition.overlaps, Bool.and_eq_true, Bool.and_eq_true, Bool.and_eq_true, hmode, hsearch, beq_iff_eq, beq_iff_eq]
  simp only [Definition.matchesWord, Bool.and_eq_true, beq_iff_eq, List.all_eq_true]
  have hfix : ∀ w : Insn, (d.bits ^^^ e.bits) &&& (d.mask &&& e.mask) = 0 →
      (∀ j, (d.mask ||| e.mask).getLsbD j = true → w.getLsbD j = (d.bits ||| e.bits).getLsbD j) →
      d.fixedMatch w = true ∧ e.fixedMatch w = true := by
    intro w hx hw
    rw [fixedMatch_iff, fixedMatch_iff]
    refine ⟨fun j => ?_, fun j => ?_⟩ <;>
    · have h1 := congrArg (fun x : Insn => x.getLsbD j) hx
      have h2 := hw j
      have h3 := bits_sub_mask hd j
      have h4 := bits_sub_mask he j
      simp only [BitVec.getLsbD_and, BitVec.getLsbD_xor, BitVec.getLsbD_or] at h1 h2
      revert h1 h2 h3 h4
      cases w.getLsbD j <;> cases d.mask.getLsbD j <;> cases e.mask.getLsbD j <;> cases d.bits.getLsbD j <;>
        cases e.bits.getLsbD j <;> simp
  have hfix' : ∀ w : Insn, d.fixedMatch w = true → e.fixedMatch w = true →
      (d.bits ^^^ e.bits) &&& (d.mask &&& e.mask) = 0 ∧
      ∀ j, (d.mask ||| e.mask).getLsbD j = true → w.getLsbD j = (d.bits ||| e.bits).getLsbD j := by
    intro w h1 h2
    rw [fixedMatch_iff] at h1 h2
    refine ⟨BitVec.eq_of_getLsbD_eq fun j _ => ?_, fun j hj => ?_⟩
    · have a := h1 j
      have b := h2 j
      rw [BitVec.getLsbD_and, BitVec.getLsbD_xor, BitVec.getLsbD_and, ← a, ← b, show (0 : Insn) = 0#32 from rfl,
        BitVec.getLsbD_zero]
      cases w.getLsbD j <;> cases d.mask.getLsbD j <;> cases e.mask.getLsbD j <;> rfl
    · have a := h1 j
      have b := h2 j
      rw [BitVec.getLsbD_or, Bool.or_eq_true] at hj
      rw [BitVec.getLsbD_or, ← a, ← b]
      revert hj
      cases w.getLsbD j <;> cases d.mask.getLsbD j <;> cases e.mask.getLsbD j <;> simp
  constructor
  · rintro ⟨⟨⟨hx, hl⟩, mode, m1, m2⟩, w, hw, ho⟩
    obtain ⟨f1, f2⟩ := hfix w hx hw
    obtain ⟨o1, o2⟩ := (hex w).mp ho
    exact ⟨mode, d.length, w, ⟨⟨⟨rfl, f1⟩, m1⟩, o1⟩, ⟨⟨hl.symm, f2⟩, m2⟩, o2⟩
  · rintro ⟨mode, len, w, ⟨⟨⟨l1, f1⟩, m1⟩, o1⟩, ⟨⟨l2, f2⟩, m2⟩, o2⟩
    obtain ⟨hx, hw⟩ := hfix' w f1 f2
    exact ⟨⟨⟨hx, l1.trans l2.symm⟩, mode, m1, m2⟩, w, hw, (hex w).mpr ⟨o1, o2⟩⟩

/-- The pairwise check, as a proposition. -/
theorem pairwiseApart_iff (t : List Definition) :
    Registry.pairwiseApart t = true ↔ t.Pairwise fun d e => d.overlaps e = false := by
  induction t with
  | nil => simp [Registry.pairwiseApart]
  | cons d ds ih => simp [Registry.pairwiseApart, ih]

/-- The registry accepts exactly the tables whose definitions are well formed and have handlers, and no two of which match one
mode and word (R180, R185, R198). -/
theorem accepts_iff (t : List Definition) : Registry.accepts t = true ↔
    (∀ d ∈ t, d.wellFormed = true ∧ d.handled = true) ∧
    t.Pairwise fun d e => ∀ mode len w, ¬(d.matchesWord mode len w = true ∧ e.matchesWord mode len w = true) := by
  rw [Registry.accepts, Bool.and_eq_true, pairwiseApart_iff, List.all_eq_true]
  simp only [Bool.and_eq_true]
  refine and_congr_right fun hw => ?_
  have hin : ∀ d ∈ t, d.bits &&& ~~~d.mask = 0 := fun d hd => by
    have := (hw d hd).1
    simp only [Definition.wellFormed, Bool.and_eq_true, beq_iff_eq] at this
    exact this.1.1.1.2
  refine List.Pairwise.iff_of_mem fun {d e} hd he => ?_
  rw [← Bool.not_eq_true, overlaps_iff (hin d hd) (hin e he)]
  simp only [not_exists]

/-- A definition of an accepted table is well formed and has its handler. -/
theorem mem_accepts {t : List Definition} {d : Definition} (h : Registry.accepts t = true) (hd : d ∈ t) :
    d.wellFormed = true ∧ d.handled = true := by
  rw [Registry.accepts, Bool.and_eq_true] at h
  simpa using List.all_eq_true.mp h.1 d hd

/-- What decoding in a table answers comes from a definition of it that matches the word. -/
theorem decodeIn_eq_ok {t : List Definition} {mode : Priv} {len : Nat} {w : Insn} {i : Instr}
    (h : decodeIn t mode len w = .ok i) :
    ∃ d, d ∈ t ∧ d.matchesWord mode len w = true ∧ Instr.ofOperands d.op (d.handlerValues w) = some i := by
  unfold decodeIn Registry.get at h
  cases hf : t.filter fun d => d.matchesWord mode len w with
  | nil => rw [hf] at h; cases h
  | cons d ds =>
    have hd : d ∈ t.filter fun d => d.matchesWord mode len w := by rw [hf]; exact List.mem_cons_self
    rw [List.mem_filter] at hd
    cases ds with
    | cons e es => rw [hf] at h; cases h
    | nil =>
      rw [hf] at h
      cases ho : Instr.ofOperands d.op (d.handlerValues w) with
      | none => simp only [ho] at h; cases h
      | some j => simp only [ho] at h; cases h; exact ⟨d, hd.1, hd.2, ho⟩

end Sys2Proof

namespace Sys2Proof.Machine

/-- The three outcomes of loading a machine. -/
theorem loadMachine_cases (cfg : Config) (image : List Host.Cell) :
    (Registry.accepts cfg.isaTable = false ∧ loadMachine cfg image = .refused .ambiguousTable) ∨
    (Registry.accepts cfg.isaTable = true ∧ csrAcyclic cfg.csrTable = false ∧
      loadMachine cfg image = .refused .aliasCycle) ∨
    (Registry.accepts cfg.isaTable = true ∧ csrAcyclic cfg.csrTable = true ∧
      loadMachine cfg image = .next (State.resetWith cfg (Memory.ofImage image))) := by
  unfold loadMachine
  cases h1 : Registry.accepts cfg.isaTable
  · exact .inl ⟨rfl, rfl⟩
  · cases h2 : csrAcyclic cfg.csrTable
    · exact .inr (.inl ⟨rfl, rfl, rfl⟩)
    · exact .inr (.inr ⟨rfl, rfl, rfl⟩)

end Sys2Proof.Machine
end

