-- ==== Sys2Proof/Tests/Slice0.lean ====
section
/-! SUPPORT. The author's tests: well-formedness, decoding, single instructions and steps, and a witness for the hypotheses of
each statement. Expected values come from the spec: its encodings, its examples and its vectors (95_test_vectors.md). -/

namespace Sys2Proof.Tests

open Sys2Proof Sys2Proof.Machine

/-! ### Well-formedness: each check refuses an ill-formed term and admits a neighbour (R183, R184, R196) -/

/-- Bits no segment produces must be 0: below the upper immediates, the branch and jump offsets, the scaled compressed offsets. -/
theorem test_wellFormed_low_bits :
    (Instr.lui 5 0x1001).wellFormed = false ∧ (Instr.lui 5 0x1000).wellFormed = true ∧
    (Instr.auipc 5 0x800).wellFormed = false ∧ (Instr.jal 1 3).wellFormed = false ∧
    (Instr.jal 1 2).wellFormed = true ∧ (Instr.beq 1 2 0x1001).wellFormed = false ∧
    (Instr.cLw 2 3 6).wellFormed = false ∧ (Instr.cLw 2 3 4).wellFormed = true ∧
    (Instr.cLdsp 1 4).wellFormed = false ∧ (Instr.cJ 1).wellFormed = false := by decide

/-- An excluded value is no instruction: a zero immediate or a reserved register of a compressed form. -/
theorem test_wellFormed_exclusions :
    (Instr.cAddi4spn 2 0).wellFormed = false ∧ (Instr.cAddi4spn 2 4).wellFormed = true ∧
    (Instr.cAddiw 0 1).wellFormed = false ∧ (Instr.cLui 2 0x1000).wellFormed = false ∧
    (Instr.cLui 1 0).wellFormed = false ∧ (Instr.cLui 1 0x1000).wellFormed = true ∧
    (Instr.cAddi16sp 0).wellFormed = false ∧ (Instr.cLwsp 0 4).wellFormed = false ∧
    (Instr.cLdsp 0 8).wellFormed = false ∧ (Instr.cJr 0).wellFormed = false ∧ (Instr.cJr 1).wellFormed = true := by decide

/-! ### Decoding: for every constructor a word of the spec (the examples of its rule; for the vector classes, the fields of R620
to R628 filled in by hand) -/

theorem test_decode_integer_0 :
    decodeTableWord 32 0x7FFFF2B7 = some (.lui 5 0x7ffff000) ∧  -- lui t0, 0x7FFFF
    decodeTableWord 32 0x00001297 = some (.auipc 5 0x1000) ∧  -- auipc t0, 1
    decodeTableWord 32 0xFFF30293 = some (.addi 5 6 0xfff) ∧  -- addi t0, t1, -1
    decodeTableWord 32 0x00032293 = some (.slti 5 6 0) ∧  -- slti t0, t1, 0
    decodeTableWord 32 0x00133293 = some (.sltiu 5 6 1) ∧  -- sltiu t0, t1, 1
    decodeTableWord 32 0xFFF34293 = some (.xori 5 6 0xfff) ∧  -- xori t0, t1, -1
    decodeTableWord 32 0x80036293 = some (.ori 5 6 0x800) ∧  -- ori t0, t1, -2048
    decodeTableWord 32 0x7FF37293 = some (.andi 5 6 0x7ff) ∧  -- andi t0, t1, 0x7FF
    decodeTableWord 32 0x03F31293 = some (.slli 5 6 0x3f) ∧  -- slli t0, t1, 63
    decodeTableWord 32 0x03C35293 = some (.srli 5 6 0x3c) := by  -- srli t0, t1, 60
  decide

theorem test_decode_integer_1 :
    decodeTableWord 32 0x43C35293 = some (.srai 5 6 0x3c) ∧  -- srai t0, t1, 60
    decodeTableWord 32 0x007302B3 = some (.add 5 6 7) ∧  -- add t0, t1, t2
    decodeTableWord 32 0x407302B3 = some (.sub 5 6 7) ∧  -- sub t0, t1, t2
    decodeTableWord 32 0x007312B3 = some (.sll 5 6 7) ∧  -- sll t0, t1, t2
    decodeTableWord 32 0x007322B3 = some (.slt 5 6 7) ∧  -- slt t0, t1, t2
    decodeTableWord 32 0x007332B3 = some (.sltu 5 6 7) ∧  -- sltu t0, t1, t2
    decodeTableWord 32 0x007342B3 = some (.xor 5 6 7) ∧  -- xor t0, t1, t2
    decodeTableWord 32 0x007352B3 = some (.srl 5 6 7) ∧  -- srl t0, t1, t2
    decodeTableWord 32 0x407352B3 = some (.sra 5 6 7) ∧  -- sra t0, t1, t2
    decodeTableWord 32 0x007362B3 = some (.or 5 6 7) := by  -- or t0, t1, t2
  decide

theorem test_decode_integer_2 :
    decodeTableWord 32 0x007372B3 = some (.and 5 6 7) ∧  -- and t0, t1, t2
    decodeTableWord 32 0x0013029B = some (.addiw 5 6 1) ∧  -- addiw t0, t1, 1
    decodeTableWord 32 0x01F3129B = some (.slliw 5 6 0x1f) ∧  -- slliw t0, t1, 31
    decodeTableWord 32 0x0003529B = some (.srliw 5 6 0) ∧  -- srliw t0, t1, 0
    decodeTableWord 32 0x4043529B = some (.sraiw 5 6 4) ∧  -- sraiw t0, t1, 4
    decodeTableWord 32 0x007302BB = some (.addw 5 6 7) ∧  -- addw t0, t1, t2
    decodeTableWord 32 0x407302BB = some (.subw 5 6 7) ∧  -- subw t0, t1, t2
    decodeTableWord 32 0x007312BB = some (.sllw 5 6 7) ∧  -- sllw t0, t1, t2
    decodeTableWord 32 0x007352BB = some (.srlw 5 6 7) ∧  -- srlw t0, t1, t2
    decodeTableWord 32 0x407352BB = some (.sraw 5 6 7) := by  -- sraw t0, t1, t2
  decide

theorem test_decode_control_0 :
    decodeTableWord 32 0xFFDFF0EF = some (.jal 1 0x1ffffc) ∧  -- jal ra, -4
    decodeTableWord 32 0x001300E7 = some (.jalr 1 6 1) ∧  -- jalr ra, 1(t1)
    decodeTableWord 32 0x00730463 = some (.beq 6 7 8) ∧  -- beq t1, t2, 8
    decodeTableWord 32 0x00731463 = some (.bne 6 7 8) ∧  -- bne t1, t2, 8
    decodeTableWord 32 0xFE734CE3 = some (.blt 6 7 0x1ff8) ∧  -- blt t1, t2, -8
    decodeTableWord 32 0x00735863 = some (.bge 6 7 0x10) ∧  -- bge t1, t2, 16
    decodeTableWord 32 0x00736863 = some (.bltu 6 7 0x10) ∧  -- bltu t1, t2, 16
    decodeTableWord 32 0x00737863 = some (.bgeu 6 7 0x10) := by  -- bgeu t1, t2, 16
  decide

theorem test_decode_load_store_0 :
    decodeTableWord 32 0x00858503 = some (.lb 0xa 0xb 8) ∧  -- lb a0, 8(a1)
    decodeTableWord 32 0x00859503 = some (.lh 0xa 0xb 8) ∧  -- lh a0, 8(a1)
    decodeTableWord 32 0x0085A503 = some (.lw 0xa 0xb 8) ∧  -- lw a0, 8(a1)
    decodeTableWord 32 0x0085B503 = some (.ld 0xa 0xb 8) ∧  -- ld a0, 8(a1)
    decodeTableWord 32 0x0085C503 = some (.lbu 0xa 0xb 8) ∧  -- lbu a0, 8(a1)
    decodeTableWord 32 0x0085D503 = some (.lhu 0xa 0xb 8) ∧  -- lhu a0, 8(a1)
    decodeTableWord 32 0x0085E503 = some (.lwu 0xa 0xb 8) ∧  -- lwu a0, 8(a1)
    decodeTableWord 32 0xFEC58C23 = some (.sb 0xb 0xc 0xff8) ∧  -- sb a2, -8(a1)
    decodeTableWord 32 0xFEC59C23 = some (.sh 0xb 0xc 0xff8) ∧  -- sh a2, -8(a1)
    decodeTableWord 32 0xFEC5AC23 = some (.sw 0xb 0xc 0xff8) := by  -- sw a2, -8(a1)
  decide

theorem test_decode_load_store_1 :
    decodeTableWord 32 0xFEC5BC23 = some (.sd 0xb 0xc 0xff8) := by  -- sd a2, -8(a1)
  decide

theorem test_decode_muldiv_0 :
    decodeTableWord 32 0x027302B3 = some (.mul 5 6 7) ∧  -- mul t0, t1, t2
    decodeTableWord 32 0x027312B3 = some (.mulh 5 6 7) ∧  -- mulh t0, t1, t2
    decodeTableWord 32 0x027322B3 = some (.mulhsu 5 6 7) ∧  -- mulhsu t0, t1, t2
    decodeTableWord 32 0x027332B3 = some (.mulhu 5 6 7) ∧  -- mulhu t0, t1, t2
    decodeTableWord 32 0x027342B3 = some (.div 5 6 7) ∧  -- div t0, t1, t2
    decodeTableWord 32 0x027352B3 = some (.divu 5 6 7) ∧  -- divu t0, t1, t2
    decodeTableWord 32 0x027362B3 = some (.rem 5 6 7) ∧  -- rem t0, t1, t2
    decodeTableWord 32 0x027372B3 = some (.remu 5 6 7) ∧  -- remu t0, t1, t2
    decodeTableWord 32 0x027302BB = some (.mulw 5 6 7) ∧  -- mulw t0, t1, t2
    decodeTableWord 32 0x027342BB = some (.divw 5 6 7) := by  -- divw t0, t1, t2
  decide

theorem test_decode_muldiv_1 :
    decodeTableWord 32 0x027352BB = some (.divuw 5 6 7) ∧  -- divuw t0, t1, t2
    decodeTableWord 32 0x027362BB = some (.remw 5 6 7) ∧  -- remw t0, t1, t2
    decodeTableWord 32 0x027372BB = some (.remuw 5 6 7) := by  -- remuw t0, t1, t2
  decide

theorem test_decode_atomic_0 :
    decodeTableWord 32 0x1005A52F = some (.lrW 0xa 0xb 0 0) ∧  -- lr.w a0, (a1)
    decodeTableWord 32 0x18C5A6AF = some (.scW 0xd 0xb 0xc 0 0) ∧  -- sc.w a3, a2, (a1)
    decodeTableWord 32 0x08C5A52F = some (.amoswapW 0xa 0xb 0xc 0 0) ∧  -- amoswap.w a0, a2, (a1)
    decodeTableWord 32 0x00C5A52F = some (.amoaddW 0xa 0xb 0xc 0 0) ∧  -- amoadd.w a0, a2, (a1)
    decodeTableWord 32 0x20C5A52F = some (.amoxorW 0xa 0xb 0xc 0 0) ∧  -- amoxor.w a0, a2, (a1)
    decodeTableWord 32 0x60C5A52F = some (.amoandW 0xa 0xb 0xc 0 0) ∧  -- amoand.w a0, a2, (a1)
    decodeTableWord 32 0x40C5A52F = some (.amoorW 0xa 0xb 0xc 0 0) ∧  -- amoor.w a0, a2, (a1)
    decodeTableWord 32 0x80C5A52F = some (.amominW 0xa 0xb 0xc 0 0) ∧  -- amomin.w a0, a2, (a1)
    decodeTableWord 32 0xA0C5A52F = some (.amomaxW 0xa 0xb 0xc 0 0) ∧  -- amomax.w a0, a2, (a1)
    decodeTableWord 32 0xC0C5A52F = some (.amominuW 0xa 0xb 0xc 0 0) := by  -- amominu.w a0, a2, (a1)
  decide

theorem test_decode_atomic_1 :
    decodeTableWord 32 0xE0C5A52F = some (.amomaxuW 0xa 0xb 0xc 0 0) ∧  -- amomaxu.w a0, a2, (a1)
    decodeTableWord 32 0x1005B52F = some (.lrD 0xa 0xb 0 0) ∧  -- lr.d a0, (a1)
    decodeTableWord 32 0x18C5B6AF = some (.scD 0xd 0xb 0xc 0 0) ∧  -- sc.d a3, a2, (a1)
    decodeTableWord 32 0x08C5B52F = some (.amoswapD 0xa 0xb 0xc 0 0) ∧  -- amoswap.d a0, a2, (a1)
    decodeTableWord 32 0x00C5B52F = some (.amoaddD 0xa 0xb 0xc 0 0) ∧  -- amoadd.d a0, a2, (a1)
    decodeTableWord 32 0x20C5B52F = some (.amoxorD 0xa 0xb 0xc 0 0) ∧  -- amoxor.d a0, a2, (a1)
    decodeTableWord 32 0x60C5B52F = some (.amoandD 0xa 0xb 0xc 0 0) ∧  -- amoand.d a0, a2, (a1)
    decodeTableWord 32 0x40C5B52F = some (.amoorD 0xa 0xb 0xc 0 0) ∧  -- amoor.d a0, a2, (a1)
    decodeTableWord 32 0x80C5B52F = some (.amominD 0xa 0xb 0xc 0 0) ∧  -- amomin.d a0, a2, (a1)
    decodeTableWord 32 0xA0C5B52F = some (.amomaxD 0xa 0xb 0xc 0 0) := by  -- amomax.d a0, a2, (a1)
  decide

theorem test_decode_atomic_2 :
    decodeTableWord 32 0xC0C5B52F = some (.amominuD 0xa 0xb 0xc 0 0) ∧  -- amominu.d a0, a2, (a1)
    decodeTableWord 32 0xE0C5B52F = some (.amomaxuD 0xa 0xb 0xc 0 0) := by  -- amomaxu.d a0, a2, (a1)
  decide

theorem test_decode_csr_0 :
    decodeTableWord 32 0x340312F3 = some (.csrrw 5 6 0x340) ∧  -- csrrw t0, mscratch, t1
    decodeTableWord 32 0x300322F3 = some (.csrrs 5 6 0x300) ∧  -- csrrs t0, mstatus, t1
    decodeTableWord 32 0x300332F3 = some (.csrrc 5 6 0x300) ∧  -- csrrc t0, mstatus, t1
    decodeTableWord 32 0x003FD2F3 = some (.csrrwi 5 0x1f 3) ∧  -- csrrwi t0, fcsr, 0x1F
    decodeTableWord 32 0x300462F3 = some (.csrrsi 5 8 0x300) ∧  -- csrrsi t0, mstatus, 8
    decodeTableWord 32 0x300472F3 = some (.csrrci 5 8 0x300) := by  -- csrrci t0, mstatus, 8
  decide

theorem test_decode_system_0 :
    decodeTableWord 32 0x0330000F = some (.fence 0 3 3 0 0) ∧  -- fence rw, rw
    decodeTableWord 32 0x0000100F = some (.fenceI 0 0 0) ∧  -- fence.i
    decodeTableWord 32 0x00000073 = some .ecall ∧  -- ecall
    decodeTableWord 32 0x00100073 = some .ebreak ∧  -- ebreak
    decodeTableWord 32 0x10200073 = some .sret ∧  -- sret
    decodeTableWord 32 0x30200073 = some .mret ∧  -- mret
    decodeTableWord 32 0x10500073 = some .wfi ∧  -- wfi
    decodeTableWord 32 0x12000073 = some (.sfenceVma 0 0) := by  -- sfence.vma x0, x0
  decide

theorem test_decode_compressed_0 :
    decodeTableWord 16 0x1FE8 = some (.cAddi4spn 2 0x3fc) ∧  -- c.addi4spn a0, sp, 1020
    decodeTableWord 16 0x2588 = some (.cFld 2 3 8) ∧  -- c.fld fa0, 8(a1)
    decodeTableWord 16 0x41C8 = some (.cLw 2 3 4) ∧  -- c.lw a0, 4(a1)
    decodeTableWord 16 0x7DE8 = some (.cLd 2 3 0xf8) ∧  -- c.ld a0, 248(a1)
    decodeTableWord 16 0xA190 = some (.cFsd 4 3 0) ∧  -- c.fsd fa2, 0(a1)
    decodeTableWord 16 0xC590 = some (.cSw 4 3 8) ∧  -- c.sw a2, 8(a1)
    decodeTableWord 16 0xE990 = some (.cSd 4 3 0x10) ∧  -- c.sd a2, 16(a1)
    decodeTableWord 16 0x1501 = some (.cAddi 0xa 0x20) ∧  -- c.addi a0, -32
    decodeTableWord 16 0x2505 = some (.cAddiw 0xa 1) ∧  -- c.addiw a0, 1
    decodeTableWord 16 0x557D = some (.cLi 0xa 0x3f) := by  -- c.li a0, -1
  decide

theorem test_decode_compressed_1 :
    decodeTableWord 16 0x7101 = some (.cAddi16sp 0x200) ∧  -- c.addi16sp sp, -512
    decodeTableWord 16 0x7501 = some (.cLui 0xa 0x20000) ∧  -- c.lui a0, 0xFFFE0
    decodeTableWord 16 0x917D = some (.cSrli 2 0x3f) ∧  -- c.srli a0, 63
    decodeTableWord 16 0x8511 = some (.cSrai 2 4) ∧  -- c.srai a0, 4
    decodeTableWord 16 0x9941 = some (.cAndi 2 0x30) ∧  -- c.andi a0, -16
    decodeTableWord 16 0x8D0D = some (.cSub 2 3) ∧  -- c.sub a0, a1
    decodeTableWord 16 0x8D2D = some (.cXor 2 3) ∧  -- c.xor a0, a1
    decodeTableWord 16 0x8D4D = some (.cOr 2 3) ∧  -- c.or a0, a1
    decodeTableWord 16 0x8D6D = some (.cAnd 2 3) ∧  -- c.and a0, a1
    decodeTableWord 16 0x9D0D = some (.cSubw 2 3) := by  -- c.subw a0, a1
  decide

theorem test_decode_compressed_2 :
    decodeTableWord 16 0x9D2D = some (.cAddw 2 3) ∧  -- c.addw a0, a1
    decodeTableWord 16 0xBFFD = some (.cJ 0xffe) ∧  -- c.j -2
    decodeTableWord 16 0xD101 = some (.cBeqz 2 0x100) ∧  -- c.beqz a0, -256
    decodeTableWord 16 0xED7D = some (.cBnez 2 0xfe) ∧  -- c.bnez a0, 254
    decodeTableWord 16 0x1502 = some (.cSlli 0xa 0x20) ∧  -- c.slli a0, 32
    decodeTableWord 16 0x307E = some (.cFldsp 0 0x1f8) ∧  -- c.fldsp f0, 504(sp)
    decodeTableWord 16 0x557E = some (.cLwsp 0xa 0xfc) ∧  -- c.lwsp a0, 252(sp)
    decodeTableWord 16 0x60A2 = some (.cLdsp 1 8) ∧  -- c.ldsp ra, 8(sp)
    decodeTableWord 16 0x8082 = some (.cJr 1) ∧  -- c.jr ra
    decodeTableWord 16 0x852E = some (.cMv 0xa 0xb) := by  -- c.mv a0, a1
  decide

theorem test_decode_compressed_3 :
    decodeTableWord 16 0x9002 = some .cEbreak ∧  -- c.ebreak
    decodeTableWord 16 0x9782 = some (.cJalr 0xf) ∧  -- c.jalr a5
    decodeTableWord 16 0x952E = some (.cAdd 0xa 0xb) ∧  -- c.add a0, a1
    decodeTableWord 16 0xA006 = some (.cFsdsp 1 0) ∧  -- c.fsdsp f1, 0(sp)
    decodeTableWord 16 0xC22A = some (.cSwsp 0xa 4) ∧  -- c.swsp a0, 4(sp)
    decodeTableWord 16 0xFF86 = some (.cSdsp 1 0x1f8) := by  -- c.sdsp ra, 504(sp)
  decide

theorem test_decode_float_0 :
    decodeTableWord 32 0x0005A087 = some (.flw 1 0xb 0) ∧  -- flw f1, 0(a1)
    decodeTableWord 32 0xFF85B087 = some (.fld 1 0xb 0xff8) ∧  -- fld f1, -8(a1)
    decodeTableWord 32 0x0015A227 = some (.fsw 0xb 1 4) ∧  -- fsw f1, 4(a1)
    decodeTableWord 32 0x0015B027 = some (.fsd 0xb 1 0) ∧  -- fsd f1, 0(a1)
    decodeTableWord 32 0xE0008553 = some (.fmvXW 0xa 1) ∧  -- fmv.x.w a0, f1
    decodeTableWord 32 0xF00500D3 = some (.fmvWX 1 0xa) ∧  -- fmv.w.x f1, a0
    decodeTableWord 32 0xE2008553 = some (.fmvXD 0xa 1) ∧  -- fmv.x.d a0, f1
    decodeTableWord 32 0xF20000D3 = some (.fmvDX 1 0) ∧  -- fmv.d.x f1, x0
    decodeTableWord 32 0x003170D3 = some (.faddS 1 2 3 7) ∧  -- fadd.s f1, f2, f3
    decodeTableWord 32 0x083170D3 = some (.fsubS 1 2 3 7) := by  -- fsub.s f1, f2, f3
  decide

theorem test_decode_float_1 :
    decodeTableWord 32 0x103170D3 = some (.fmulS 1 2 3 7) ∧  -- fmul.s f1, f2, f3
    decodeTableWord 32 0x183170D3 = some (.fdivS 1 2 3 7) ∧  -- fdiv.s f1, f2, f3
    decodeTableWord 32 0x580170D3 = some (.fsqrtS 1 2 7) ∧  -- fsqrt.s f1, f2
    decodeTableWord 32 0x203100D3 = some (.fsgnjS 1 2 3) ∧  -- fsgnj.s f1, f2, f3
    decodeTableWord 32 0x203110D3 = some (.fsgnjnS 1 2 3) ∧  -- fsgnjn.s f1, f2, f3
    decodeTableWord 32 0x203120D3 = some (.fsgnjxS 1 2 3) ∧  -- fsgnjx.s f1, f2, f3
    decodeTableWord 32 0x283100D3 = some (.fminS 1 2 3) ∧  -- fmin.s f1, f2, f3
    decodeTableWord 32 0x283110D3 = some (.fmaxS 1 2 3) ∧  -- fmax.s f1, f2, f3
    decodeTableWord 32 0xA03120D3 = some (.feqS 1 2 3) ∧  -- feq.s ra, f2, f3
    decodeTableWord 32 0xA03110D3 = some (.fltS 1 2 3) := by  -- flt.s ra, f2, f3
  decide

theorem test_decode_float_2 :
    decodeTableWord 32 0xA03100D3 = some (.fleS 1 2 3) ∧  -- fle.s ra, f2, f3
    decodeTableWord 32 0xE00110D3 = some (.fclassS 1 2) ∧  -- fclass.s ra, f2
    decodeTableWord 32 0xC00170D3 = some (.fcvtWS 1 2 7) ∧  -- fcvt.w.s ra, f2
    decodeTableWord 32 0xC01170D3 = some (.fcvtWuS 1 2 7) ∧  -- fcvt.wu.s ra, f2
    decodeTableWord 32 0xC02170D3 = some (.fcvtLS 1 2 7) ∧  -- fcvt.l.s ra, f2
    decodeTableWord 32 0xC03170D3 = some (.fcvtLuS 1 2 7) ∧  -- fcvt.lu.s ra, f2
    decodeTableWord 32 0xD00170D3 = some (.fcvtSW 1 2 7) ∧  -- fcvt.s.w f1, sp
    decodeTableWord 32 0xD01170D3 = some (.fcvtSWu 1 2 7) ∧  -- fcvt.s.wu f1, sp
    decodeTableWord 32 0xD02170D3 = some (.fcvtSL 1 2 7) ∧  -- fcvt.s.l f1, sp
    decodeTableWord 32 0xD03170D3 = some (.fcvtSLu 1 2 7) := by  -- fcvt.s.lu f1, sp
  decide

theorem test_decode_float_3 :
    decodeTableWord 32 0x023170D3 = some (.faddD 1 2 3 7) ∧  -- fadd.d f1, f2, f3
    decodeTableWord 32 0x0A3170D3 = some (.fsubD 1 2 3 7) ∧  -- fsub.d f1, f2, f3
    decodeTableWord 32 0x123170D3 = some (.fmulD 1 2 3 7) ∧  -- fmul.d f1, f2, f3
    decodeTableWord 32 0x1A3170D3 = some (.fdivD 1 2 3 7) ∧  -- fdiv.d f1, f2, f3
    decodeTableWord 32 0x5A0170D3 = some (.fsqrtD 1 2 7) ∧  -- fsqrt.d f1, f2
    decodeTableWord 32 0x223100D3 = some (.fsgnjD 1 2 3) ∧  -- fsgnj.d f1, f2, f3
    decodeTableWord 32 0x223110D3 = some (.fsgnjnD 1 2 3) ∧  -- fsgnjn.d f1, f2, f3
    decodeTableWord 32 0x223120D3 = some (.fsgnjxD 1 2 3) ∧  -- fsgnjx.d f1, f2, f3
    decodeTableWord 32 0x2A3100D3 = some (.fminD 1 2 3) ∧  -- fmin.d f1, f2, f3
    decodeTableWord 32 0x2A3110D3 = some (.fmaxD 1 2 3) := by  -- fmax.d f1, f2, f3
  decide

theorem test_decode_float_4 :
    decodeTableWord 32 0xA23120D3 = some (.feqD 1 2 3) ∧  -- feq.d ra, f2, f3
    decodeTableWord 32 0xA23110D3 = some (.fltD 1 2 3) ∧  -- flt.d ra, f2, f3
    decodeTableWord 32 0xA23100D3 = some (.fleD 1 2 3) ∧  -- fle.d ra, f2, f3
    decodeTableWord 32 0xE20110D3 = some (.fclassD 1 2) ∧  -- fclass.d ra, f2
    decodeTableWord 32 0xC20170D3 = some (.fcvtWD 1 2 7) ∧  -- fcvt.w.d ra, f2
    decodeTableWord 32 0xC21170D3 = some (.fcvtWuD 1 2 7) ∧  -- fcvt.wu.d ra, f2
    decodeTableWord 32 0xC22170D3 = some (.fcvtLD 1 2 7) ∧  -- fcvt.l.d ra, f2
    decodeTableWord 32 0xC23170D3 = some (.fcvtLuD 1 2 7) ∧  -- fcvt.lu.d ra, f2
    decodeTableWord 32 0xD20170D3 = some (.fcvtDW 1 2 7) ∧  -- fcvt.d.w f1, sp
    decodeTableWord 32 0xD21170D3 = some (.fcvtDWu 1 2 7) := by  -- fcvt.d.wu f1, sp
  decide

theorem test_decode_float_5 :
    decodeTableWord 32 0xD22170D3 = some (.fcvtDL 1 2 7) ∧  -- fcvt.d.l f1, sp
    decodeTableWord 32 0xD23170D3 = some (.fcvtDLu 1 2 7) ∧  -- fcvt.d.lu f1, sp
    decodeTableWord 32 0x401170D3 = some (.fcvtSD 1 2 7) ∧  -- fcvt.s.d f1, f2
    decodeTableWord 32 0x420170D3 = some (.fcvtDS 1 2 7) ∧  -- fcvt.d.s f1, f2
    decodeTableWord 32 0x203170C3 = some (.fmaddS 1 2 3 4 7) ∧  -- fmadd.s f1, f2, f3, f4
    decodeTableWord 32 0x203170C7 = some (.fmsubS 1 2 3 4 7) ∧  -- fmsub.s f1, f2, f3, f4
    decodeTableWord 32 0x203170CB = some (.fnmsubS 1 2 3 4 7) ∧  -- fnmsub.s f1, f2, f3, f4
    decodeTableWord 32 0x203170CF = some (.fnmaddS 1 2 3 4 7) ∧  -- fnmadd.s f1, f2, f3, f4
    decodeTableWord 32 0x223170C3 = some (.fmaddD 1 2 3 4 7) ∧  -- fmadd.d f1, f2, f3, f4
    decodeTableWord 32 0x223170C7 = some (.fmsubD 1 2 3 4 7) := by  -- fmsub.d f1, f2, f3, f4
  decide

theorem test_decode_float_6 :
    decodeTableWord 32 0x223170CB = some (.fnmsubD 1 2 3 4 7) ∧  -- fnmsub.d f1, f2, f3, f4
    decodeTableWord 32 0x223170CF = some (.fnmaddD 1 2 3 4 7) := by  -- fnmadd.d f1, f2, f3, f4
  decide

theorem test_decode_stubs_0 :
    decodeTableWord 32 0x22000073 = some (.hfenceVvma 0 0) ∧  -- hfence.vvma x0, x0
    decodeTableWord 32 0x62000073 = some (.hfenceGvma 0 0) ∧  -- hfence.gvma x0, x0
    decodeTableWord 32 0x6005C573 = some (.hlvB 0xa 0xb) ∧  -- hlv.b a0, (a1)
    decodeTableWord 32 0x6015C573 = some (.hlvBu 0xa 0xb) ∧  -- hlv.bu a0, (a1)
    decodeTableWord 32 0x6405C573 = some (.hlvH 0xa 0xb) ∧  -- hlv.h a0, (a1)
    decodeTableWord 32 0x6415C573 = some (.hlvHu 0xa 0xb) ∧  -- hlv.hu a0, (a1)
    decodeTableWord 32 0x6435C573 = some (.hlvxHu 0xa 0xb) ∧  -- hlvx.hu a0, (a1)
    decodeTableWord 32 0x6805C573 = some (.hlvW 0xa 0xb) ∧  -- hlv.w a0, (a1)
    decodeTableWord 32 0x6815C573 = some (.hlvWu 0xa 0xb) ∧  -- hlv.wu a0, (a1)
    decodeTableWord 32 0x6835C573 = some (.hlvxWu 0xa 0xb) := by  -- hlvx.wu a0, (a1)
  decide

theorem test_decode_stubs_1 :
    decodeTableWord 32 0x6C05C573 = some (.hlvD 0xa 0xb) ∧  -- hlv.d a0, (a1)
    decodeTableWord 32 0x62C5C073 = some (.hsvB 0xb 0xc) ∧  -- hsv.b a2, (a1)
    decodeTableWord 32 0x66C5C073 = some (.hsvH 0xb 0xc) ∧  -- hsv.h a2, (a1)
    decodeTableWord 32 0x6AC5C073 = some (.hsvW 0xb 0xc) ∧  -- hsv.w a2, (a1)
    decodeTableWord 32 0x6EC5C073 = some (.hsvD 0xb 0xc) ∧  -- hsv.d a2, (a1)
    decodeTableWord 32 0x0005A00F = some (.cboInval 0xb) ∧  -- cbo.inval (a1)
    decodeTableWord 32 0x0015A00F = some (.cboClean 0xb) ∧  -- cbo.clean (a1)
    decodeTableWord 32 0x0025A00F = some (.cboFlush 0xb) ∧  -- cbo.flush (a1)
    decodeTableWord 32 0x0045A00F = some (.cboZero 0xb) ∧  -- cbo.zero (a1)
    decodeTableWord 32 0x022180D7 = some .vectorOp := by
  decide

theorem test_decode_stubs_2 :
    decodeTableWord 32 0x02058007 = some .vectorLoadW8 ∧
    decodeTableWord 32 0x0205D007 = some .vectorLoadW16 ∧
    decodeTableWord 32 0x0205E007 = some .vectorLoadW32 ∧
    decodeTableWord 32 0x0205F007 = some .vectorLoadW64 ∧
    decodeTableWord 32 0x02058027 = some .vectorStoreW8 ∧
    decodeTableWord 32 0x0205D027 = some .vectorStoreW16 ∧
    decodeTableWord 32 0x0205E027 = some .vectorStoreW32 ∧
    decodeTableWord 32 0x0205F027 = some .vectorStoreW64 := by
  decide
/-- Words without a definition: the all-zero parcel, a reserved compressed word, an unassigned opcode (R194, R196). -/
theorem test_decode_none :
    decodeTableWord 16 0x0000 = none ∧ decodeTableWord 16 0x8002 = none ∧ decodeTableWord 32 0x0000000B = none := by decide

/-- `mret` has no definition in S-mode (R199). -/
theorem test_decode_mret_supervisor : decodeWord .supervisor 4 0x30200073 = .error .noDefinition := by decide

/-- The default CSR table has no cyclic chain of views, and a chain of two that view each other is refused (R67). -/
theorem test_csr_tables :
    csrAcyclic csrTable = true ∧
    csrAcyclic [⟨0x800, 0, .view 0x801, .value 0⟩, ⟨0x801, 0, .view 0x800, .value 0⟩] = false ∧
    csrAcyclic [⟨0x800, 0, .view 0x801, .value 0⟩] = false := by decide

/-- `add` in custom-0, with its operands declared in another order: another table's definition (R181, R198). -/
def customAdd : Definition :=
  ⟨.add, 4, 0xFE00707F, 0x0000000B, 0, [⟨.rs2, [⟨24, 20, 0⟩], []⟩, ⟨.rd, [⟨11, 7, 0⟩], []⟩, ⟨.rs1, [⟨19, 15, 0⟩], []⟩]⟩

/-- A table with a definition in custom-0 is accepted, and its word decodes there; without an operand that the handler reads, or
with a malformed length, it is refused (R180, R198). -/
theorem test_other_table :
    Registry.accepts [row .sub, customAdd] = true ∧
    decodeIn [row .sub, customAdd] .user 4 0x0073028B = .ok (.add 5 6 7) ∧
    Registry.accepts [{ customAdd with operands := [⟨.rd, [⟨11, 7, 0⟩], []⟩, ⟨.rs1, [⟨19, 15, 0⟩], []⟩] }] = false ∧
    Registry.accepts [{ customAdd with length := 3 }] = false := by decide

/-- `add` in custom-0 for the destinations that are not excluded. -/
def customAddWithout (rds : List Nat) : Definition :=
  { customAdd with operands :=
      [⟨.rd, [⟨11, 7, 0⟩], rds⟩, ⟨.rs1, [⟨19, 15, 0⟩], []⟩, ⟨.rs2, [⟨24, 20, 0⟩], []⟩] }

/-- Two definitions with the same fixed bits are accepted exactly if their exclusions leave no word that both match (R185). -/
theorem test_exclusions_apart :
    Registry.accepts [customAddWithout (List.range 16), customAddWithout ((List.range 16).map (· + 16))] = true ∧
    Registry.accepts [customAddWithout (List.range 16), customAddWithout ((List.range 15).map (· + 16))] = false := by decide

/-! ### Single instructions: vectors of 95_test_vectors.md, by their ids -/

/-- The start of the vectors: after reset, with both trap vectors installed. -/
def base : State :=
  State.reset.withCsr ((CsrFile.reset csrTable 0).set .mtvec 0x80100000 |>.set .stvec 0x80101000)

/-- The start of the vectors with some general registers set. -/
def start (xs : List (BitVec 5 × Word)) : State := xs.foldl (fun s p => s.writeX p.1 p.2) base

/-- The state with `n` bytes stored at an address. -/
def store8 (a n : Nat) (v : Word) (s : State) : State := s.withMem (Memory.writeLE s.mem a n v)

/-- The state with one CSR's stored value replaced. -/
def setCsr (r : CsrReg) (v : Word) (s : State) : State := s.withCsr (s.hart.csr.set r v)

/-- A view of a next state. -/
def view {α : Type} (f : State → α) (r : Result) : Option α :=
  match r with
  | .next t => some (f t)
  | .fault _ => none
  | .refused _ => none

/-- A general register after a step. -/
def xOf (r : Result) (n : BitVec 5) : Option Word := view (fun t => t.readX n) r
/-- A floating-point register after a step. -/
def fOf (r : Result) (n : BitVec 5) : Option Word := view (fun t => t.readF n) r
/-- The pc after a step. -/
def pcOf (r : Result) : Option Word := view (fun t => t.hart.pc) r
/-- The privilege after a step. -/
def privOf (r : Result) : Option Priv := view (fun t => t.hart.priv) r
/-- The WFI and semihosting flags after a step. -/
def flagsOf (r : Result) : Option (Bool × Bool) := view (fun t => (t.hart.sleeping, t.hart.semihosting)) r
/-- A stored CSR after a step. -/
def csrOf (r : Result) (c : CsrReg) : Option Word := view (fun t => t.hart.csr.get c) r
/-- The fault of a step. -/
def faultOf : Result → Option Fault
  | .next _ => none
  | .fault f => some f
  | .refused _ => none
/-- The refusal of a step. -/
def refusalOf : Result → Option Refusal
  | .next _ => none
  | .fault _ => none
  | .refused r => some r
/-- Bytes of memory after a step. -/
def memOf (r : Result) (a n : Nat) : Option Word := view (fun t => Memory.readLE t.mem a n) r

/-- Parameters with a `CSR_TABLE` of three rows: a storage register, a view of it, and a machine id. -/
def otherTables : Config :=
  { Config.default with
    isaTable := [row .csrrw, customAdd]
    csrTable := [⟨0x800, 0xFF0, .storage, .value 0x123⟩, ⟨0x801, 0x0FF, .view 0x800, .value 0⟩,
      ⟨0xF14, 0, .storage, .hartid⟩] }

/-- Another table's registers reset, read and write as its rows say, and its instructions run (R11, R62 to R64, R68). -/
theorem test_other_csrs :
    let s := State.resetWith otherTables []
    let r := exec (.csrrwi 5 0x1F 0x800) s
    let v := exec (.csrrwi 5 0x1F 0x801) s
    xOf r 5 = some 0x123 ∧ csrOf r (.other 0x800) = some 0x013 ∧ xOf v 5 = some 0x023 ∧
    csrOf v (.other 0x800) = some 0x113 ∧ xOf (runWord 0x0005050B 4 (s.writeX 10 7)) 10 = some 7 ∧
    faultOf (exec (.csrrwi 5 1 0x340) s) = some .noTrapHandler := by decide

/-- Another table's `lw` and `add` in two-byte encodings that the default table leaves undefined (R181, R196). -/
def shortTable : Config :=
  { Config.default with
    isaTable :=
      [⟨.lw, 2, 0xE003, 0x8000, 0, [⟨.rd, [⟨4, 2, 0⟩], []⟩, ⟨.rs1, [⟨7, 5, 0⟩], []⟩, ⟨.imm, [⟨12, 8, 0⟩], []⟩]⟩,
        ⟨.add, 2, 0xFC63, 0x9C41, 0, [⟨.rd, [⟨4, 2, 0⟩], []⟩, ⟨.rs1, [⟨9, 7, 0⟩], []⟩, ⟨.rs2, [⟨4, 2, 0⟩], []⟩]⟩] }

/-- `lw x2, 4(x3)` of that table goes on at the pc plus its own length, 2; `add x2, x3, x2` at the pc plus 4, as its rule states;
and the default `lw` at the pc plus 4 (R203, R260, R340). -/
theorem test_length_of_definition :
    let s := store8 0x80001004 4 0x80000001 ((State.resetWith shortTable []).writeX 3 0x80001000)
    let r := runWord 0x8468 2 s
    let q := runWord 0x9DC9 2 (s.writeX 2 5)
    Registry.accepts shortTable.isaTable = true ∧ xOf r 2 = some 0xFFFFFFFF80000001 ∧ pcOf r = some 0x80000002 ∧
    xOf q 2 = some 0x80001005 ∧ pcOf q = some 0x80000004 ∧
    pcOf (runWord 0x0041A103 4 (store8 0x80001004 4 1 (start [(3, 0x80001000)]))) = some 0x80000004 := by decide

-- slt a0, a1, a2
theorem test_A3_slt :
    let r := exec (.slt 0xA 0xB 0xC)
      (start [(11, 0xFFFFFFFFFFFFFFFF), (12, 1)])
    xOf r 10 = some 1 ∧ pcOf r = some 0x80000004 := by
  decide

-- sltu a0, a1, a2
theorem test_A4_sltu :
    let r := exec (.sltu 0xA 0xB 0xC)
      (start [(11, 0xFFFFFFFFFFFFFFFF), (12, 1)])
    xOf r 10 = some 0 ∧ pcOf r = some 0x80000004 := by
  decide

-- sltiu a0, a1, -1
theorem test_A5_sltiu :
    let r := exec (.sltiu 0xA 0xB 0xFFF)
      (start [(11, 0x1234)])
    xOf r 10 = some 1 ∧ pcOf r = some 0x80000004 := by
  decide

-- sll a0, a1, a2
theorem test_A10_sll :
    let r := exec (.sll 0xA 0xB 0xC)
      (start [(11, 1), (12, 0x7F)])
    xOf r 10 = some 0x8000000000000000 ∧ pcOf r = some 0x80000004 := by
  decide

-- sra a0, a1, a2
theorem test_A12_sra :
    let r := exec (.sra 0xA 0xB 0xC)
      (start [(11, 0x8000000000000000), (12, 0x3F)])
    xOf r 10 = some 0xFFFFFFFFFFFFFFFF ∧ pcOf r = some 0x80000004 := by
  decide

-- addiw a0, a1, 1
theorem test_A16_addiw :
    let r := exec (.addiw 0xA 0xB 1)
      (start [(11, 0x7FFFFFFF)])
    xOf r 10 = some 0xFFFFFFFF80000000 ∧ pcOf r = some 0x80000004 := by
  decide

-- addiw a0, a1, 0 (sext.w)
theorem test_A17_addiw :
    let r := exec (.addiw 0xA 0xB 0)
      (start [(11, 0x1234567880000000)])
    xOf r 10 = some 0xFFFFFFFF80000000 ∧ pcOf r = some 0x80000004 := by
  decide

-- sraw a0, a1, a2
theorem test_A22_sraw :
    let r := exec (.sraw 0xA 0xB 0xC)
      (start [(11, 0x80000000), (12, 4)])
    xOf r 10 = some 0xFFFFFFFFF8000000 ∧ pcOf r = some 0x80000004 := by
  decide

-- srliw a0, a1, 0
theorem test_A24_srliw :
    let r := exec (.srliw 0xA 0xB 0)
      (start [(11, 0xFFFFFFFF80000000)])
    xOf r 10 = some 0xFFFFFFFF80000000 ∧ pcOf r = some 0x80000004 := by
  decide

-- lui a0, 0x7FFFF
theorem test_A26_lui :
    let r := exec (.lui 0xA 0x7FFFF000)
      (start [])
    xOf r 10 = some 0x7FFFF000 ∧ pcOf r = some 0x80000004 := by
  decide

-- auipc a0, 0x80000
theorem test_A27_auipc :
    let r := exec (.auipc 0xA 0x80000000)
      (start [])
    xOf r 10 = some 0 ∧ pcOf r = some 0x80000004 := by
  decide

-- add x0, a1, a2
theorem test_A31_add :
    let r := exec (.add 0 0xB 0xC)
      (start [(11, 1), (12, 2)])
    pcOf r = some 0x80000004 := by
  decide

-- slli x0, x0, 0x1F (semihosting toggle)
theorem test_A32_slli :
    let r := exec (.slli 0 0 0x1F)
      (start [])
    flagsOf r = some (false, true) ∧ pcOf r = some 0x80000004 := by
  decide

-- slli x0, x0, 0x1E (not the toggle)
theorem test_A34_slli :
    let r := exec (.slli 0 0 0x1E)
      (start [])
    pcOf r = some 0x80000004 := by
  decide

-- beq a1, a2, -4
theorem test_B1_beq :
    let r := exec (.beq 0xB 0xC 0x1FFC)
      (start [(11, 5), (12, 5)])
    pcOf r = some 0x7FFFFFFC := by
  decide

-- bltu a1, a2, 8
theorem test_B5_bltu :
    let r := exec (.bltu 0xB 0xC 8)
      (start [(11, 0xFFFFFFFFFFFFFFFF), (12, 0)])
    pcOf r = some 0x80000004 := by
  decide

-- jal ra, -2
theorem test_B8_jal :
    let r := exec (.jal 1 0x1FFFFE)
      (start [])
    xOf r 1 = some 0x80000004 ∧ pcOf r = some 0x7FFFFFFE := by
  decide

-- jalr ra, 7(a1)
theorem test_B9_jalr :
    let r := exec (.jalr 1 0xB 7)
      (start [(11, 0x80000100)])
    xOf r 1 = some 0x80000004 ∧ pcOf r = some 0x80000106 := by
  decide

-- jalr a1, 0(a1)
theorem test_B10_jalr :
    let r := exec (.jalr 0xB 0xB 0)
      (start [(11, 0x80000100)])
    xOf r 11 = some 0x80000004 ∧ pcOf r = some 0x80000100 := by
  decide

-- lb a0, 0(a1)
theorem test_L1_lb :
    let r := exec (.lb 0xA 0xB 0)
      (store8 0x80001000 8 0x123456789ABCDEF (start [(11, 0x80001000)]))
    xOf r 10 = some 0xFFFFFFFFFFFFFFEF ∧ pcOf r = some 0x80000004 := by
  decide

-- lbu a0, 0(a1)
theorem test_L2_lbu :
    let r := exec (.lbu 0xA 0xB 0)
      (store8 0x80001000 8 0x123456789ABCDEF (start [(11, 0x80001000)]))
    xOf r 10 = some 0xEF ∧ pcOf r = some 0x80000004 := by
  decide

-- ld a0, 3(a1) (misaligned)
theorem test_L8_ld :
    let r := exec (.ld 0xA 0xB 3)
      (store8 0x80001008 8 0x1122334455667788 (store8 0x80001000 8 0x123456789ABCDEF (start [(11, 0x80001000)])))
    xOf r 10 = some 0x6677880123456789 ∧ pcOf r = some 0x80000004 := by
  decide

-- sb a2, 1(a1)
theorem test_L10_sb :
    let r := exec (.sb 0xB 0xC 1)
      (store8 0x80001000 8 0 (start [(11, 0x80001000), (12, 0x1FF)]))
    memOf r 0x80001000 8 = some 0xFF00 ∧ pcOf r = some 0x80000004 := by
  decide

-- sw a2, 2(a1) (misaligned)
theorem test_L12_sw :
    let r := exec (.sw 0xB 0xC 2)
      (store8 0x80001000 8 0 (start [(11, 0x80001000), (12, 0xDEADBEEF)]))
    memOf r 0x80001000 8 = some 0xDEADBEEF0000 ∧ pcOf r = some 0x80000004 := by
  decide

-- lw a0, 0(a1) (no device)
theorem test_L14_lw :
    let r := exec (.lw 0xA 0xB 0)
      (start [(11, 0x40000000)])
    faultOf r = some .busFault := by
  decide

-- mulhu a0, a1, a2
theorem test_D3_mulhu :
    let r := exec (.mulhu 0xA 0xB 0xC)
      (start [(11, 0xFFFFFFFFFFFFFFFF), (12, 0xFFFFFFFFFFFFFFFF)])
    xOf r 10 = some 0xFFFFFFFFFFFFFFFE ∧ pcOf r = some 0x80000004 := by
  decide

-- mulhsu a0, a1, a2
theorem test_D4_mulhsu :
    let r := exec (.mulhsu 0xA 0xB 0xC)
      (start [(11, 0xFFFFFFFFFFFFFFFF), (12, 0xFFFFFFFFFFFFFFFF)])
    xOf r 10 = some 0xFFFFFFFFFFFFFFFF ∧ pcOf r = some 0x80000004 := by
  decide

-- mulh a0, a1, a2
theorem test_D5_mulh :
    let r := exec (.mulh 0xA 0xB 0xC)
      (start [(11, 0x8000000000000000), (12, 0x8000000000000000)])
    xOf r 10 = some 0x4000000000000000 ∧ pcOf r = some 0x80000004 := by
  decide

-- div a0, a1, a2
theorem test_D6_div :
    let r := exec (.div 0xA 0xB 0xC)
      (start [(11, 7), (12, 0)])
    xOf r 10 = some 0xFFFFFFFFFFFFFFFF ∧ pcOf r = some 0x80000004 := by
  decide

-- rem a0, a1, a2
theorem test_D8_rem :
    let r := exec (.rem 0xA 0xB 0xC)
      (start [(11, 7), (12, 0)])
    xOf r 10 = some 7 ∧ pcOf r = some 0x80000004 := by
  decide

-- div a0, a1, a2
theorem test_D10_div :
    let r := exec (.div 0xA 0xB 0xC)
      (start [(11, 0x8000000000000000), (12, 0xFFFFFFFFFFFFFFFF)])
    xOf r 10 = some 0x8000000000000000 ∧ pcOf r = some 0x80000004 := by
  decide

-- rem a0, a1, a2
theorem test_D11_rem :
    let r := exec (.rem 0xA 0xB 0xC)
      (start [(11, 0x8000000000000000), (12, 0xFFFFFFFFFFFFFFFF)])
    xOf r 10 = some 0 ∧ pcOf r = some 0x80000004 := by
  decide

-- remw a0, a1, a2
theorem test_D16_remw :
    let r := exec (.remw 0xA 0xB 0xC)
      (start [(11, 0xFFFFFFFF80000000), (12, 0xFFFFFFFFFFFFFFFF)])
    xOf r 10 = some 0 ∧ pcOf r = some 0x80000004 := by
  decide

-- divuw a0, a1, a2
theorem test_D17_divuw :
    let r := exec (.divuw 0xA 0xB 0xC)
      (start [(11, 0x123456789), (12, 0x100000000)])
    xOf r 10 = some 0xFFFFFFFFFFFFFFFF ∧ pcOf r = some 0x80000004 := by
  decide

-- remuw a0, a1, a2
theorem test_D18_remuw :
    let r := exec (.remuw 0xA 0xB 0xC)
      (start [(11, 0xFFFFFFFF80000001), (12, 0)])
    xOf r 10 = some 0xFFFFFFFF80000001 ∧ pcOf r = some 0x80000004 := by
  decide

-- amoadd.w a0, a2, (a1)
theorem test_M1_amoaddW :
    let r := exec (.amoaddW 0xA 0xB 0xC 0 0)
      (store8 0x80001000 8 0x7FFFFFFF (start [(11, 0x80001000), (12, 1)]))
    xOf r 10 = some 0x7FFFFFFF ∧ memOf r 0x80001000 8 = some 0x80000000 ∧ pcOf r = some 0x80000004 := by
  decide

-- amomin.w a0, a2, (a1)
theorem test_M3_amominW :
    let r := exec (.amominW 0xA 0xB 0xC 0 0)
      (store8 0x80001000 4 0xFFFFFFFF (start [(11, 0x80001000), (12, 1)]))
    xOf r 10 = some 0xFFFFFFFFFFFFFFFF ∧ memOf r 0x80001000 4 = some 0xFFFFFFFF ∧ pcOf r = some 0x80000004 := by
  decide

-- amominu.w a0, a2, (a1)
theorem test_M4_amominuW :
    let r := exec (.amominuW 0xA 0xB 0xC 0 0)
      (store8 0x80001000 4 0xFFFFFFFF (start [(11, 0x80001000), (12, 1)]))
    xOf r 10 = some 0xFFFFFFFFFFFFFFFF ∧ memOf r 0x80001000 4 = some 1 ∧ pcOf r = some 0x80000004 := by
  decide

-- amomaxu.d a0, a2, (a1)
theorem test_M6_amomaxuD :
    let r := exec (.amomaxuD 0xA 0xB 0xC 0 0)
      (store8 0x80001000 8 0x8000000000000000 (start [(11, 0x80001000), (12, 1)]))
    xOf r 10 = some 0x8000000000000000 ∧ memOf r 0x80001000 8 = some 0x8000000000000000 ∧
    pcOf r = some 0x80000004 := by
  decide

-- amoadd.w a0, a2, (a1) (misaligned)
theorem test_M10_amoaddW :
    let r := exec (.amoaddW 0xA 0xB 0xC 0 0)
      (start [(11, 0x80001002), (12, 1)])
    csrOf r .mepc = some 0x80000000 ∧ csrOf r .mcause = some 6 ∧ csrOf r .mtval = some 0x80001002 ∧
    pcOf r = some 0x80100000 ∧ privOf r = some .machine := by
  decide

-- lr.d a0, (a1) (misaligned)
theorem test_M11_lrD :
    let r := exec (.lrD 0xA 0xB 0 0)
      (start [(11, 0x80001004)])
    csrOf r .mepc = some 0x80000000 ∧ csrOf r .mcause = some 4 ∧ csrOf r .mtval = some 0x80001004 ∧
    pcOf r = some 0x80100000 ∧ privOf r = some .machine := by
  decide

-- lr.w a0, (a1)
theorem test_M12_lrW :
    let r := exec (.lrW 0xA 0xB 0 0)
      (store8 0x80001000 4 0x80000000 (start [(11, 0x80001000)]))
    xOf r 10 = some 0xFFFFFFFF80000000 ∧ pcOf r = some 0x80000004 := by
  decide

-- sc.w a0, a2, (a1) with no lr before it
theorem test_M13_scW :
    let r := exec (.scW 0xA 0xB 0xC 0 0)
      (store8 0x80001000 4 0 (start [(11, 0x80001000), (12, 7)]))
    xOf r 10 = some 0 ∧ memOf r 0x80001000 4 = some 7 ∧ pcOf r = some 0x80000004 := by
  decide

-- sc.d a0, a2, (a1) (misaligned)
theorem test_M14_scD :
    let r := exec (.scD 0xA 0xB 0xC 0 0)
      (start [(11, 0x80001004), (12, 7)])
    csrOf r .mepc = some 0x80000000 ∧ csrOf r .mcause = some 6 ∧ csrOf r .mtval = some 0x80001004 ∧
    pcOf r = some 0x80100000 ∧ privOf r = some .machine := by
  decide

-- csrrw a0, mscratch, a1
theorem test_K1_csrrw :
    let r := exec (.csrrw 0xA 0xB 0x340)
      (setCsr .mscratch 0x99 (start [(11, 0x1234)]))
    xOf r 10 = some 0x99 ∧ csrOf r .mscratch = some 0x1234 ∧ pcOf r = some 0x80000004 := by
  decide

-- csrrw x0, mhartid, t0
theorem test_K3_csrrw :
    let r := exec (.csrrw 0 5 0xF14)
      (start [(5, 5)])
    csrOf r .mepc = some 0x80000000 ∧ csrOf r .mcause = some 2 ∧ pcOf r = some 0x80100000 ∧
    privOf r = some .machine := by
  decide

-- csrrs a0, sstatus, x0 in S-mode
theorem test_K6_csrrs :
    let r := exec (.csrrs 0xA 0 0x100)
      ((setCsr .mstatus 0xA0004000A (start [])).withPriv .supervisor)
    xOf r 10 = some 0x200040002 ∧ pcOf r = some 0x80000004 := by
  decide

-- csrrwi a0, mscratch, 31
theorem test_K9_csrrwi :
    let r := exec (.csrrwi 0xA 0x1F 0x340)
      (setCsr .mscratch 1 (start []))
    xOf r 10 = some 1 ∧ csrOf r .mscratch = some 0x1F ∧ pcOf r = some 0x80000004 := by
  decide

-- csrrsi x0, mie, 0
theorem test_K10_csrrsi :
    let r := exec (.csrrsi 0 0 0x304)
      (start [])
    pcOf r = some 0x80000004 := by
  decide

-- ecall in U-mode, medeleg[8] = 1
theorem test_Y3_ecall :
    let r := exec .ecall
      ((setCsr .medeleg 0x100 (start [])).withPriv .user)
    csrOf r .sepc = some 0x80000000 ∧ csrOf r .scause = some 8 ∧ csrOf r .stval = some 0 ∧
    pcOf r = some 0x80101000 ∧ privOf r = some .supervisor := by
  decide

-- ebreak
theorem test_Y4_ebreak :
    let r := exec .ebreak
      (start [])
    csrOf r .mepc = some 0x80000000 ∧ csrOf r .mcause = some 3 ∧ csrOf r .mtval = some 0x80000000 ∧
    pcOf r = some 0x80100000 ∧ privOf r = some .machine := by
  decide

-- ebreak with semihosting on
theorem test_Y5_ebreak :
    let r := exec .ebreak
      ((start []).withSemihosting true)
    refusalOf r = some .semihostingCall := by
  decide

-- mret, MPP = S, MPIE = 1
theorem test_Y6_mret :
    let r := exec .mret
      (setCsr .mepc 0x80004000 (setCsr .mstatus 0xA00000880 (start [])))
    csrOf r .mstatus = some 0xA00000088 ∧ pcOf r = some 0x80004000 ∧ privOf r = some .supervisor := by
  decide

-- mret, MPP = 2
theorem test_Y8_mret :
    let r := exec .mret
      (setCsr .mepc 0x80004000 (setCsr .mstatus 0xA00001000 (start [])))
    faultOf r = some .illegalPrivilege := by
  decide

-- sret in S-mode, SPP = U, SPIE = 1
theorem test_Y10_sret :
    let r := exec .sret
      ((setCsr .sepc 0x80005000 (setCsr .mstatus 0xA00000020 (start []))).withPriv .supervisor)
    csrOf r .mstatus = some 0xA00000022 ∧ pcOf r = some 0x80005000 ∧ privOf r = some .user := by
  decide

-- sret in M-mode, SPP = S
theorem test_Y11_sret :
    let r := exec .sret
      (setCsr .sepc 0x80005000 (setCsr .mstatus 0xA00000100 (start [])))
    csrOf r .mstatus = some 0xA00000020 ∧ pcOf r = some 0x80005000 ∧ privOf r = some .supervisor := by
  decide

-- wfi, nothing pending
theorem test_Y13_wfi :
    let r := exec .wfi
      (start [])
    flagsOf r = some (true, false) ∧ pcOf r = some 0x80000004 := by
  decide

-- sfence.vma x0, x0 in U-mode
theorem test_Y18_sfenceVma :
    let r := exec (.sfenceVma 0 0)
      ((start []).withPriv .user)
    csrOf r .mepc = some 0x80000000 ∧ csrOf r .mcause = some 2 ∧ pcOf r = some 0x80100000 ∧
    privOf r = some .machine := by
  decide

-- c.li a0, -32
theorem test_Q2_cLi :
    let r := exec (.cLi 0xA 0x20)
      (start [])
    xOf r 10 = some 0xFFFFFFFFFFFFFFE0 ∧ pcOf r = some 0x80000002 := by
  decide

-- c.addi16sp sp, -512
theorem test_Q5_cAddi16sp :
    let r := exec (.cAddi16sp 0x200)
      (start [(2, 0x80001800)])
    xOf r 2 = some 0x80001600 ∧ pcOf r = some 0x80000002 := by
  decide

-- c.addi4spn a0, sp, 1020
theorem test_Q6_cAddi4spn :
    let r := exec (.cAddi4spn 2 0x3FC)
      (start [(2, 0x80001800)])
    xOf r 10 = some 0x80001BFC ∧ pcOf r = some 0x80000002 := by
  decide

-- c.lw a0, 4(a1)
theorem test_Q7_cLw :
    let r := exec (.cLw 2 3 4)
      (store8 0x80001000 8 0x80000000DEADBEEF (start [(11, 0x80001000)]))
    xOf r 10 = some 0xFFFFFFFF80000000 ∧ pcOf r = some 0x80000002 := by
  decide

-- c.swsp a2, 4(sp)
theorem test_Q13_cSwsp :
    let r := exec (.cSwsp 0xC 4)
      (store8 0x80001800 8 0 (start [(2, 0x80001800), (12, 0xCAFEF00D)]))
    memOf r 0x80001800 8 = some 0xCAFEF00D00000000 ∧ pcOf r = some 0x80000002 := by
  decide

-- c.sdsp a2, 0(sp)
theorem test_Q14_cSdsp :
    let r := exec (.cSdsp 0xC 0)
      (store8 0x80001800 8 0 (start [(2, 0x80001800), (12, 0xCAFEF00D)]))
    memOf r 0x80001800 8 = some 0xCAFEF00D ∧ pcOf r = some 0x80000002 := by
  decide

-- c.srai a0, 4
theorem test_Q16_cSrai :
    let r := exec (.cSrai 2 4)
      (start [(10, 0x8000000000000000)])
    xOf r 10 = some 0xF800000000000000 ∧ pcOf r = some 0x80000002 := by
  decide

-- c.subw a0, a1
theorem test_Q23_cSubw :
    let r := exec (.cSubw 2 3)
      (start [(10, 0), (11, 1)])
    xOf r 10 = some 0xFFFFFFFFFFFFFFFF ∧ pcOf r = some 0x80000002 := by
  decide

-- c.beqz a0, 6
theorem test_Q26_cBeqz :
    let r := exec (.cBeqz 2 6)
      (start [(10, 0)])
    pcOf r = some 0x80000006 := by
  decide

-- c.jr a1
theorem test_Q28_cJr :
    let r := exec (.cJr 0xB)
      (start [(11, 0x80000101)])
    pcOf r = some 0x80000100 := by
  decide

-- c.jalr a1
theorem test_Q29_cJalr :
    let r := exec (.cJalr 0xB)
      (start [(11, 0x80000100)])
    xOf r 1 = some 0x80000002 ∧ pcOf r = some 0x80000100 := by
  decide

-- c.fsdsp fa0, 0(sp)
theorem test_Q34_cFsdsp :
    let r := exec (.cFsdsp 0xA 0)
      (store8 0x80001800 8 0 ((start [(2, 0x80001800)]).writeF 10 0x4000000000000000))
    memOf r 0x80001800 8 = some 0x4000000000000000 ∧ pcOf r = some 0x80000002 := by
  decide

-- c.slli x0, 0x1F (HINT, not the toggle)
theorem test_Q38_cSlli :
    let r := exec (.cSlli 0 0x1F)
      (start [])
    pcOf r = some 0x80000002 := by
  decide

-- flw fa0, 0(a1)
theorem test_F1_flw :
    let r := exec (.flw 0xA 0xB 0)
      (store8 0x80001000 4 0x3F800000 (start [(11, 0x80001000)]))
    fOf r 10 = some 0xFFFFFFFF3F800000 ∧ pcOf r = some 0x80000004 := by
  decide

-- fsw fa0, 0(a1)
theorem test_F2_fsw :
    let r := exec (.fsw 0xB 0xA 0)
      (store8 0x80001000 8 0xFFFFFFFFFFFFFFFF ((start [(11, 0x80001000)]).writeF 10 0x3F800000))
    memOf r 0x80001000 8 = some 0xFFFFFFFF3F800000 ∧ pcOf r = some 0x80000004 := by
  decide

-- fmv.x.w a0, fa0
theorem test_F5_fmvXW :
    let r := exec (.fmvXW 0xA 0xA)
      ((start []).writeF 10 0xFFFFFFFFBF800000)
    xOf r 10 = some 0xFFFFFFFFBF800000 ∧ pcOf r = some 0x80000004 := by
  decide

-- fmv.w.x fa0, a1
theorem test_F6_fmvWX :
    let r := exec (.fmvWX 0xA 0xB)
      (start [(11, 0x123456783F800000)])
    fOf r 10 = some 0xFFFFFFFF3F800000 ∧ pcOf r = some 0x80000004 := by
  decide

-- fadd.s fa0, fa1, fa2
theorem test_F9_faddS :
    let r := exec (.faddS 0xA 0xB 0xC 7)
      (start [])
    csrOf r .mepc = some 0x80000000 ∧ csrOf r .mcause = some 2 ∧ pcOf r = some 0x80100000 ∧
    privOf r = some .machine := by
  decide

-- hlv.b a0, (a1)
theorem test_H1_hlvB :
    let r := exec (.hlvB 0xA 0xB)
      (start [])
    csrOf r .mepc = some 0x80000000 ∧ csrOf r .mcause = some 2 ∧ pcOf r = some 0x80100000 ∧
    privOf r = some .machine := by
  decide

-- vector arithmetic (OP-V)
theorem test_H4_vectorOp :
    let r := exec .vectorOp
      (start [])
    csrOf r .mepc = some 0x80000000 ∧ csrOf r .mcause = some 2 ∧ pcOf r = some 0x80100000 ∧
    privOf r = some .machine := by
  decide

/-! ### Steps: the translation and interrupt vectors T and X of 95_test_vectors.md -/

/-- The page tables of the T vectors: the root at 0x80010000, the code gigapage, the leaf of 0x1000 with the given flags. -/
def tables (flags : Word) (s : State) : State :=
  store8 0x80012008 8 (0x20008000 ||| flags) (store8 0x80011000 8 0x20004801
    (store8 0x80010000 8 0x20004401 (store8 0x80010010 8 0x200000CF s)))

/-- S-mode under Sv39 with those tables, and the doubleword the T vectors read. -/
def paged (flags : Word) (xs : List (BitVec 5 × Word)) : State :=
  (setCsr .satp 0x8000000000080010 (store8 0x80020000 8 0x1122334455667788 (tables flags (start xs)))).withPriv .supervisor

-- T3: ld a0, 0(a1), leaf A = 0
theorem test_T3_translated_load :
    let r := exec (.ld 10 11 0) (paged 0x07 [(11, 0x1000)])
    xOf r 10 = some 0x1122334455667788 ∧ memOf r 0x80012008 8 = some 0x20008047 ∧
      view (fun t => t.hart.tlb.map fun e => (e.asidKey, e.keys)) r = some [(0, [(1, 2)])] := by
  decide

-- T4: sd a2, 0(a1), leaf D = 0
theorem test_T4_translated_store :
    let r := exec (.sd 11 12 0) (paged 0x47 [(11, 0x1000), (12, 5)])
    memOf r 0x80012008 8 = some 0x200080C7 ∧ memOf r 0x80020000 8 = some 5 := by
  decide

-- T5: sd a2, 0(a1), read-only leaf
theorem test_T5_store_page_fault :
    let r := exec (.sd 11 12 0) (paged 0xC3 [(11, 0x1000), (12, 5)])
    csrOf r .mcause = some 15 ∧ csrOf r .mtval = some 0x1000 ∧ memOf r 0x80020000 8 = some 0x1122334455667788 := by
  decide

-- T9a: ld a0, 0(a1), U page, SUM = 0
theorem test_T9a_user_page :
    csrOf (exec (.ld 10 11 0) (paged 0xD7 [(11, 0x1000)])) .mcause = some 13 := by
  decide

-- T16: ld a0, 0(a1), the 8 bytes cross into the next page
theorem test_T16_page_cross :
    faultOf (exec (.ld 10 11 0) (paged 0xC7 [(11, 0x1FFC)])) = some .misalignedPageCross := by
  decide

/-- The start of the X vectors: a timer line, and the machine enables. -/
def timer : State := (setCsr .mstatus 0xA00000008 (setCsr .mie 0x80 base)).withLines ⟨false, true, false, false⟩

-- X1: MTI taken in M, direct
theorem test_X1_interrupt :
    let r := step timer
    pcOf r = some 0x80100000 ∧ csrOf r .mcause = some 0x8000000000000007 ∧ csrOf r .mepc = some 0x80000000 ∧
      csrOf r .mstatus = some 0xA00001880 := by
  decide

-- X2: MTI taken, vectored mtvec
theorem test_X2_vectored : pcOf (step (setCsr .mtvec 0x80100001 timer)) = some 0x8010001C := by
  decide

/-- A supervisor timer interrupt pending and delegated, with the S enable set. -/
def delegated (status : Word) : State :=
  let s := setCsr .mstatus status (setCsr .mie 0x20 (setCsr .mideleg 0x20 base))
  s.withCsr { s.hart.csr with mipLatch := 0x20 }

-- X4: STI delegated, taken in S
theorem test_X4_delegated :
    let r := step ((delegated 0xA00000002).withPriv .supervisor)
    pcOf r = some 0x80101000 ∧ csrOf r .scause = some 0x8000000000000005 ∧ csrOf r .sepc = some 0x80000000 ∧
      csrOf r .mstatus = some 0xA00000120 ∧ privOf r = some .supervisor := by
  decide

-- X12: WFI wake, interrupt not taken: the step goes on to fetch (here an addi)
theorem test_X12_wake :
    let r := step ((((delegated 0xA00000008).withSleeping true).withFetchWord 32 0x00100513))
    pcOf r = some 0x80000004 ∧ flagsOf r = some (false, false) ∧ xOf r 10 = some 1 := by
  decide

-- X13: WFI, global enable off
theorem test_X13_asleep :
    let r := step ((setCsr .mstatus 0xA00000000 timer).withSleeping true)
    pcOf r = some 0x80000000 ∧ flagsOf r = some (true, false) := by
  decide

-- X16: the all-zero parcel is illegal; in S with medeleg[2] = 1 its exception goes to S
theorem test_X16_illegal_delegated :
    let r := step ((setCsr .medeleg 4 base).withPriv .supervisor)
    pcOf r = some 0x80101000 ∧ csrOf r .scause = some 2 ∧ csrOf r .sepc = some 0x80000000 ∧
      csrOf r .mstatus = some 0xA00000100 := by
  decide

/-- The first step after reset with nothing placed: the all-zero parcel is illegal, and no handler is installed (log entry 17). -/
theorem test_reset_step : faultOf (step State.reset) = some .noTrapHandler := by
  decide

/-! ### A witness for the hypotheses of each statement -/

/-- A next state exists where the outcome views as one. -/
theorem exists_next {r : Result} (h : (view (fun _ => ()) r).isSome = true) : ∃ t, r = .next t := by
  cases r with
  | next t => exact ⟨t, rfl⟩
  | fault f => cases h
  | refused q => cases h

/-- The value of an operation. -/
def okOf {α : Type} : Res α → Option α
  | .ok a _ => some a
  | .raise _ _ _ => none
  | .fault _ => none

/-- The exception of an operation, with its trap value. -/
def raiseOf {α : Type} : Res α → Option (Exc × Word)
  | .ok _ _ => none
  | .raise e v _ => some (e, v)
  | .fault _ => none

theorem exists_ok {α : Type} {r : Res α} {a : α} (h : okOf r = some a) : ∃ s, r = .ok a s := by
  cases r with
  | ok b s => exact ⟨s, by rw [Option.some.inj h]⟩
  | raise e v s => cases h
  | fault f => cases h

theorem exists_raise {α : Type} {r : Res α} {e : Exc} {v : Word} (h : raiseOf r = some (e, v)) :
    ∃ s, r = .raise e v s := by
  cases r with
  | ok b s => cases h
  | raise e' v' s => obtain ⟨rfl, rfl⟩ := Prod.mk.inj (Option.some.inj h); exact ⟨s, rfl⟩
  | fault f => cases h

/-- Memory answers, decided. -/
theorem ramAt_of {s : State} {pa : Word} {n : Nat}
    (h : ((busRange s.cfg.busMap pa n).map fun r => r.kind) = some .ram) : RamAt s pa n := by
  unfold RamAt
  cases hr : busRange s.cfg.busMap pa n with
  | none => rw [hr] at h; cases h
  | some r => rw [hr] at h; exact ⟨r, rfl, Option.some.inj h⟩

/-- In M-mode, memory answers the address itself. -/
theorem answered_of {s : State} {a : Word} {n : Nat} (hp : s.hart.priv = .machine)
    (h : ((busRange s.cfg.busMap a n).map fun r => r.kind) = some .ram) : Answered s a n := ⟨.inl hp, ramAt_of h⟩

/-- User mode with everything delegable delegated, and both vectors installed. -/
def user : State := (setCsr .medeleg 0xB3FF base).withPriv .user

theorem handler_base (code : Nat) : HandlerInstalled code base.hart :=
  ⟨fun _ => by decide, fun _ => by decide⟩

theorem handler_user (code : Nat) : HandlerInstalled code user.hart :=
  ⟨fun _ => by decide, fun _ => by decide⟩

theorem witness_DecodeEncodeRoundTrip :
    (Instr.jal 5 0x1FFFFE).wellFormed = true ∧ (row (Instr.jal 5 0x1FFFFE).op).allows .user = true ∧
    Instr.mret.wellFormed = true ∧ (row Instr.mret.op).allows .machine = true := by decide

/-- An operand of the default table, one of a 16-bit definition that no default one has, and a default one. -/
theorem witness_OperandRoundTrip :
    (∃ o, (row .jal).wellFormed = true ∧ o ∈ (row .jal).operands ∧ SegmentsApart o ∧ (0x1FFFFE : Insn) &&& ~~~o.cover = 0) ∧
    (∃ (d : Definition) (o : Operand), d.wellFormed = true ∧ o ∈ d.operands ∧ o.segments = [⟨15, 13, 29⟩, ⟨2, 2, 0⟩] ∧
      SegmentsApart o ∧ (0xE0000001 : Insn) &&& ~~~o.cover = 0) ∧
    ∃ o, o ∈ (row .sb).operands :=
  ⟨⟨(row .jal).operands[1], by decide, by decide, by unfold SegmentsApart; decide, by decide⟩,
    ⟨⟨.cLi, 2, 3, 1, 0, [⟨.imm, [⟨15, 13, 29⟩, ⟨2, 2, 0⟩], []⟩]⟩, _, by decide, List.mem_singleton_self _, rfl,
      by unfold SegmentsApart; decide, by decide⟩,
    (row .sb).operands[0], by decide⟩

theorem witness_DecodedIsWellFormed :
    (decodeWord .machine 2 0x8D0D = .ok (.cSub 2 3) ∧ NoBitFree (row (Instr.cSub 2 3).op) ∧
      (0x8D0D : Insn) >>> (8 * 2) = 0) ∧
    decodeWord .user 4 0xFFFFF0B7 = .ok (.lui 1 0xFFFFF000) ∧ NoBitFree (row (Instr.lui 1 0xFFFFF000).op) ∧
      (0xFFFFF0B7 : Insn) >>> (8 * 4) = 0 := by
  unfold NoBitFree; decide

theorem witness_DecodingIsUnique :
    2 ≤ (({ Config.default with isaTable := [row .add, row .add] } : Config).isaTable.filter fun d =>
      d.matchesWord .user 4 0x007302B3).length ∧
    ∀ d, d ∈ base.cfg.isaTable → d.matchesWord base.hart.priv 2 0 = false := by
  have h : (table.all fun d => !d.matchesWord base.hart.priv 2 0) = true := by decide
  exact ⟨by decide, fun d hd => by simpa using List.all_eq_true.mp h d hd⟩

/-- A machine that two views of each other make ill formed, and one that a view of an undefined address does. -/
def cyclic : Config :=
  { otherTables with csrTable := [⟨0x800, 0, .view 0x801, .value 0⟩, ⟨0x801, 0, .view 0x800, .value 0⟩] }
def dangling : Config := { otherTables with csrTable := [⟨0x800, 0, .view 0x801, .value 0⟩] }

/-- No word matches two definitions of the table that only exclusions hold apart. -/
theorem witness_LoadChecksTheTables_loaded :
    let t := [customAddWithout (List.range 16), customAddWithout ((List.range 16).map (· + 16))]
    csrAcyclic csrTable = true ∧ (∀ d, d ∈ t → d.wellFormed = true ∧ d.handled = true) ∧
      ∀ (mode : Priv) (len : Nat) (w : Insn), (t.filter fun d => d.matchesWord mode len w).length ≤ 1 := by
  intro t
  obtain ⟨hw, hp⟩ := (accepts_iff t).mp test_exclusions_apart.1
  refine ⟨by decide, hw, fun mode len w => ?_⟩
  have h := (List.pairwise_cons.mp hp).1 _ (List.mem_singleton_self _) mode len w
  show (List.filter _ [customAddWithout _, customAddWithout _]).length ≤ 1
  cases h1 : (customAddWithout (List.range 16)).matchesWord mode len w <;>
    cases h2 : (customAddWithout ((List.range 16).map (· + 16))).matchesWord mode len w
  · simp [h1, h2]
  · simp [h1, h2]
  · simp [h1, h2]
  · exact absurd ⟨h1, h2⟩ h

/-- A table with one definition twice, whose word both match. -/
theorem witness_LoadChecksTheTables_ambiguous :
    2 ≤ (({ otherTables with isaTable := [customAdd, customAdd] } : Config).isaTable.filter fun d =>
      d.matchesWord .user 4 0x0073028B).length := by decide

theorem witness_LoadChecksTheTables :
    (∃ d : Definition, d ∈ ({ otherTables with isaTable := [{ customAdd with length := 3 }] } : Config).isaTable ∧
      d.length ∉ [2, 4]) ∧
    (∃ d : Definition, d ∈ ({ otherTables with isaTable := [{ customAdd with operands := [] }] } : Config).isaTable ∧
      ∃ o, o ∈ (row d.op).operands ∧ ∀ o', o' ∈ d.operands → o'.label ≠ o.label) ∧
    ({ customAdd with bits := 0x80 } : Definition).bits &&& ~~~customAdd.mask ≠ 0 ∧ (0x7E : Insn) &&& 3 ≠ 3 ∧
    (Registry.accepts cyclic.isaTable = true ∧ ∀ a, (a = 0x800 ∨ a = 0x801) →
      ∃ r b, csrFind cyclic.csrTable a = some r ∧ r.kind = .view b ∧ (b = 0x800 ∨ b = 0x801)) ∧
    (Registry.accepts dangling.isaTable = true ∧ ∃ r, csrFind dangling.csrTable 0x800 = some r ∧ r.kind = .view 0x801 ∧
      csrFind dangling.csrTable 0x801 = none) ∧
    ∃ s, loadMachine otherTables [(0x80000000, 1)] = .next s :=
  ⟨⟨_, List.mem_singleton_self _, by decide⟩,
    ⟨_, List.mem_singleton_self _, ⟨.rd, [⟨11, 7, 0⟩], []⟩, by decide, by decide⟩, by decide, by decide,
    ⟨by decide, fun a ha => by
      rcases ha with rfl | rfl
      · exact ⟨_, 0x801, rfl, rfl, .inr rfl⟩
      · exact ⟨_, 0x800, rfl, rfl, .inl rfl⟩⟩,
    ⟨by decide, _, rfl, rfl, rfl⟩, exists_next (by decide)⟩

theorem witness_ReservedWordsHaveNoDefinition :
    (0xFFFFFF8B : Insn) &&& 0x7F = 0x0B ∧ (0x1F : Insn) &&& 0x7F = 0x1F ∧ (0x2B : Insn) &&& 0x7F = 0x2B ∧
    (0x3F : Insn) &&& 0x7F = 0x3F ∧ (0x5B : Insn) &&& 0x7F = 0x5B ∧ (0x5F : Insn) &&& 0x7F = 0x5F ∧
    (0x77 : Insn) &&& 0x7F = 0x77 ∧ (0x7B : Insn) &&& 0x7F = 0x7B ∧ (0xFFFFFFFF : Insn) &&& 0x7F = 0x7F ∧
    (0x1C : Insn) &&& 0xFFFFFFE3 = 0 ∧ (0x307D : Insn) &&& 0xFFFFEF83 = 0x2001 ∧
    (0x6F81 : Insn) &&& 0xFFFFF07F = 0x6001 ∧ (0x507E : Insn) &&& 0xFFFFEF83 = 0x4002 ∧
    (0x707E : Insn) &&& 0xFFFFEF83 = 0x6002 ∧ (0x9FFC : Insn) &&& 0xFFFFE003 = 0x8000 ∧
    (0x9FDD : Insn) &&& 0xFFFFFC63 = 0x9C41 ∧ (0x9FFD : Insn) &&& 0xFFFFFC63 = 0x9C61 ∧
    decodeIn base.cfg.isaTable base.hart.priv 2 0x8002 = .error .noDefinition := by decide

theorem witness_OnlyMretIsRestricted :
    user.cfg.isaTable = table ∧ user.hart.priv ≠ .machine ∧ user.hart.priv = .user := ⟨rfl, by decide, by decide⟩

/-- The doubleword of instructions the next two witnesses run: `add t0, t1, t2`, and `c.sub a0, a1`. -/
def placed : State := base.withFetchWord 32 0x007302B3
def placed2 : State := base.withFetchWord 16 0x8D0D

theorem witness_StepRunsTheDecodedInstruction :
    placed.cfg.byteOrder = .little ∧ ∃ s1, interruptCheck (dropTlb (environment placed)) = (none, s1) ∧
      s1.hart.sleeping = false ∧ ∃ s2, fetch s1 = .ok (0x007302B3, 4) s2 ∧
      decodeIn s2.cfg.isaTable s2.hart.priv 4 0x007302B3 = .ok (.add 5 6 7) := by
  refine ⟨by decide, placed, ?_, by decide, placed, ?_, by decide⟩
  · rw [environment_idle (by decide), dropTlb_idle (.inr (by decide)), interruptCheck_none (by decide)]
  · rfl

theorem witness_StepRunsInstructionInMemory :
    (placed.cfg.byteOrder = .little ∧ placed.schedule = [] ∧ placed.hart.tlb = [] ∧
      lowestPending (pendingBits placed.hart) = none ∧ placed.hart.sleeping = false ∧
      (Instr.add 5 6 7).wellFormed = true ∧ (row (Instr.add 5 6 7).op).allows placed.hart.priv = true ∧
      placed.hart.priv = .machine ∧
      (∀ k, k < 2 → placed.readByte (placed.hart.pc.toNat + k) = (encode (.add 5 6 7) >>> (8 * k)).setWidth 8) ∧
      (Instr.add 5 6 7).length = 4 ∧
      ∀ k, k < 2 →
        placed.readByte ((placed.hart.pc + 2).toNat + k) = (encode (.add 5 6 7) >>> (16 + 8 * k)).setWidth 8) ∧
    (∀ k, k < 2 → placed2.readByte (placed2.hart.pc.toNat + k) = (encode (.cSub 2 3) >>> (8 * k)).setWidth 8) ∧
    placed.cfg.isaTable = table ∧ RamAt placed placed.hart.pc 2 ∧ RamAt placed (placed.hart.pc + 2) 2 := by
  refine ⟨by decide, by decide, rfl, ramAt_of (by decide), ramAt_of (by decide)⟩

theorem witness_SleepingHartOnlyChecksInterrupts :
    ((base.withSleeping true).hart.sleeping = true ∧
      lowestPending (pendingBits (base.withSleeping true).hart) = none) ∧
    (let s := (setCsr .mstatus 0xA00000000 timer).withSleeping true;
      s.hart.sleeping = true ∧ globalEnable s.cfg s.hart = false) ∧
    (let s := timer.withSleeping true;
      lowestPending (pendingBits s.hart) = some .mti ∧ globalEnable s.cfg s.hart = true ∧
      (trapTarget (.interrupt .mti) s.hart).code ≥ s.hart.priv.code) ∧
    (let s := (delegated 0xA00000008).withSleeping true;
      lowestPending (pendingBits s.hart) = some .sti ∧ globalEnable s.cfg s.hart = true ∧
      (trapTarget (.interrupt .sti) s.hart).code < s.hart.priv.code) := by decide

theorem inv_base : base.hart.Inv := by constructor <;> decide
theorem inv_timer : timer.hart.Inv := by constructor <;> decide

theorem witness_InterruptSelection :
    (timer.hart.Inv ∧ lowestPending (pendingBits timer.hart) = some .mti) ∧
    (base.hart.Inv ∧ lowestPending (pendingBits base.hart) = none) ∧
    timer.hart.priv = .machine ∧ (timer.withPriv .supervisor).hart.priv = .supervisor ∧ user.hart.priv = .user ∧
    user.cfg.uIrqEnable = .both ∧ ({ Config.default with uIrqEnable := .uie } : Config).uIrqEnable = .uie ∧
    ({ Config.default with uIrqEnable := .always } : Config).uIrqEnable = .always :=
  ⟨⟨inv_timer, by decide⟩, ⟨inv_base, by decide⟩, by decide⟩

theorem witness_InterruptIsTaken :
    (lowestPending (pendingBits timer.hart) = some .mti ∧ globalEnable timer.cfg timer.hart = true ∧
      bit timer.hart.csr.mideleg 7 = false ∧ timer.hart.csr.mtvec &&& ~~~3 ≠ 0) ∧
    (let s := (delegated 0xA00000002).withPriv .supervisor;
      lowestPending (pendingBits s.hart) = some .sti ∧ globalEnable s.cfg s.hart = true ∧
      bit s.hart.csr.mideleg 5 = true ∧ s.hart.priv ≠ .machine ∧ s.hart.csr.stvec &&& ~~~3 ≠ 0) ∧
    (let s := delegated 0xA00000008;
      lowestPending (pendingBits s.hart) = some .sti ∧ globalEnable s.cfg s.hart = true ∧
      bit s.hart.csr.mideleg 5 = true ∧ s.hart.priv = .machine) := by decide

theorem witness_TrapEntryState :
    (trapTarget (.exception .ecallFromM) base.hart = .machine ∧ base.hart.csr.mtvec &&& ~~~3 ≠ 0) ∧
    (trapTarget (.exception .ecallFromU) user.hart = .supervisor ∧ user.hart.csr.stvec &&& ~~~3 ≠ 0) ∧
    (trapTarget (.exception .breakpoint) State.reset.hart = .machine ∧ State.reset.hart.csr.mtvec &&& ~~~3 = 0) ∧
    let s := setCsr .stvec 3 user
    trapTarget (.exception .breakpoint) s.hart = .supervisor ∧ s.hart.csr.stvec &&& ~~~3 = 0 := by decide

theorem witness_TrapTargetNeverLowersPrivilege :
    (∃ t, raiseExc .ecallFromU 0 user = .next t) ∧
    ∃ s1 t, interruptCheck timer = (some .mti, s1) ∧ takeTrap (.interrupt .mti) 0 s1.hart.pc s1 = .next t := by
  refine ⟨exists_next (by decide), timer.withSleeping false, ?_⟩
  obtain ⟨t, ht⟩ := exists_next (r := takeTrap (.interrupt .mti) 0 timer.hart.pc (timer.withSleeping false)) (by decide)
  exact ⟨t, rfl, ht⟩

theorem witness_ReturnsFromTraps :
    (base.hart.priv = .machine ∧ statusMPP (setCsr .mstatus 0xA00001000 base).hart.csr.mstatus = 2) ∧
    statusMPP (setCsr .mstatus 0xA00001800 base).hart.csr.mstatus ≠ 2 ∧
    user.hart.priv = .user ∧ base.hart.priv ≠ .user := by decide

theorem witness_EcallAndEbreak :
    HandlerInstalled (8 + base.hart.priv.code) base.hart ∧ HandlerInstalled (8 + user.hart.priv.code) user.hart ∧
    (base.withSemihosting true).hart.semihosting = true ∧ base.hart.semihosting = false ∧
    HandlerInstalled 3 base.hart :=
  ⟨handler_base _, handler_user _, by decide, by decide, handler_base _⟩

theorem witness_SemihostingToggle :
    ¬((0 : BitVec 5) = 0 ∧ (0 : BitVec 5) = 0 ∧ (0x1E : BitVec 6) = 0x1F) ∧
    ¬((1 : BitVec 5) = 0 ∧ (0 : BitVec 5) = 0 ∧ (0x1F : BitVec 6) = 0x1F) := by decide

theorem witness_SfenceVmaFlushes : user.hart.priv = .user ∧ base.hart.priv ≠ .user := by decide

theorem witness_CsrChecksRefuse :
    (csrAcyclic base.cfg.csrTable = true ∧ csrFind base.cfg.csrTable 0x7C0 = none) ∧
    user.hart.priv.code < ((0x100 : BitVec 12) >>> 8).toNat % 4 ∧
    ((0xF14 : BitVec 12) >>> 10).toNat = 3 ∧ (5 : BitVec 5) ≠ 0 ∧
    let c : Config := { otherTables with csrTable := [⟨0x800, 0, .computed .time, .value 0⟩] }
    csrAcyclic c.csrTable = true ∧
      csrTerminal c.csrTable 0x800 = some (⟨0x800, 0, .computed .time, .value 0⟩, 0) := by decide

theorem witness_CsrInstructions :
    csrAcyclic base.cfg.csrTable = true ∧ csrReadable base.cfg.csrTable 0x340 base.hart.priv = true ∧
    csrWritable base.cfg.csrTable 0x340 = true ∧ csrReadable user.cfg.csrTable 0x003 user.hart.priv = true ∧
    csrWritable user.cfg.csrTable 0x003 = true ∧ csrReadable base.cfg.csrTable 0xF15 base.hart.priv = true ∧
    csrReadable user.cfg.csrTable 0xC00 user.hart.priv = true := by decide

theorem witness_StorageCsrMaskedWrite :
    base.cfg.csrTable = csrTable ∧
    csrFind (State.resetWith otherTables []).cfg.csrTable 0x800 = some ⟨0x800, 0xFF0, .storage, .value 0x123⟩ :=
  ⟨rfl, by decide⟩

theorem witness_ViewAndComputedCsrs : base.cfg.csrTable = csrTable := rfl

theorem witness_LittleEndianBus :
    RamAt base 0x801FFFF8 8 ∧ RamAt base 0x80000000 1 ∧ Memory.wf base.mem = true ∧
    (State.resetWith { Config.default with byteOrder := .big } []).cfg.byteOrder = .big :=
  ⟨ramAt_of (by decide), ramAt_of (by decide), by decide, by decide⟩

/-- A machine with a device window beside its memory. -/
def withDevice : State :=
  State.resetWith { Config.default with busMap := [⟨0x80000000, 0x200000, .ram⟩, ⟨0x10000000, 0x100, .device⟩] } []

theorem witness_DeviceAccessesAreLogged :
    (∀ n, n ∈ [1, 2, 4, 8] → DeviceAt withDevice 0x10000000 n) ∧ Untranslated withDevice ∧
    (let s := withDevice.writeX 11 0x10000008
     effectiveAddress 11 (sext (0 : BitVec 12)) s = 0x10000008 ∧ (s.readX 11).toNat % 8 = 0) ∧
    DeviceAt withDevice 0x100000F8 8 := by
  refine ⟨fun n hn => ?_, .inl (by decide), by decide, ⟨_, rfl, rfl⟩⟩
  simp only [List.mem_cons, List.not_mem_nil, or_false] at hn
  rcases hn with rfl | rfl | rfl | rfl <;> exact ⟨_, rfl, rfl⟩

theorem witness_TranslateByMode :
    base.hart.priv = .machine ∧ satpMode user.hart.csr.satp = 0 ∧ user.hart.priv ≠ .machine ∧
    (satpMode (setCsr .satp 0x8000000000080010 user).hart.csr.satp, 3) ∈ [(8, 3), (9, 4), (10, 5)] ∧
    (satpMode (setCsr .satp 0x9000000000080010 user).hart.csr.satp, 4) ∈ [(8, 3), (9, 4), (10, 5)] ∧
    (satpMode (setCsr .satp 0xA000000000080010 user).hart.csr.satp, 5) ∈ [(8, 3), (9, 4), (10, 5)] ∧
    satpMode (setCsr .satp 0x1000000000080010 user).hart.csr.satp ∉ [0, 8, 9, 10] ∧
    satpMode (setCsr .satp 0xB000000000080010 user).hart.csr.satp ∉ [0, 8, 9, 10] := by decide

/-- A data page of the supervisor whose page-table entry has the given flags. -/
def page (flags : Word) : TlbEntry where
  pteAddr := 0x80012008
  pte := 0x20008000 ||| flags
  vpn := 1
  asidKey := 0
  vbase := 0x1000
  pbase := 0x80020000
  size := 4096
  keys := [(1, 2)]

theorem witness_TouchChecks :
    (Priv.user ≠ .machine ∧ Priv.supervisor ≠ .machine) ∧
    (touchAllowed (page 0xC3).pte .write .supervisor false = false ∧
      tlbLookup [page 0xC3] 0x1FFF 7 = some (page 0xC3)) ∧
    (let s := paged 0xC3 []
     RamAt s (pteAddress 0x80012 0x1000 0) 8 ∧ Memory.readLE s.mem (pteAddress 0x80012 0x1000 0).toNat 8 = 0x200080C3 ∧
       pteV 0x200080C3 = true ∧ pteR 0x200080C3 = true ∧
       touchAllowed 0x200080C3 .write s.hart.priv (statusSUM s.hart.csr.mstatus) = false) ∧
    pteX 0xC9 = true ∧ pteW 0xC9 = false ∧ touchAllowed 0xC9 .read .supervisor false = false :=
  ⟨by decide, by decide, ⟨ramAt_of (by decide), by decide⟩, by decide⟩

theorem witness_TouchUpdatesAccessedAndDirty :
    let s := paged 0xC7 []
    (touchAllowed (page 0xC7).pte .write s.hart.priv (statusSUM s.hart.csr.mstatus) = true ∧
      pteA (page 0xC7).pte = true ∧ (Access.write = .write → pteD (page 0xC7).pte = true)) ∧
    (touchAllowed (page 0x47).pte .write s.hart.priv (statusSUM s.hart.csr.mstatus) = true ∧
      pteD (page 0x47).pte = false) ∧
    (touchAllowed (page 0x87).pte .read s.hart.priv (statusSUM s.hart.csr.mstatus) = true ∧
      pteA (page 0x87).pte = false) ∧
    RamAt s (page 0x47).pteAddr 8 ∧ Memory.wf s.mem = true :=
  ⟨by decide, by decide, by decide, ramAt_of (by decide), by decide⟩

theorem witness_TlbHitTranslates :
    (tlbLookup [page 0xC7] 0x1FFF 7 = some (page 0xC7) ∧
      touchAllowed (page 0xC7).pte .write .supervisor false = true ∧ pteA (page 0xC7).pte = true ∧
      pteD (page 0xC7).pte = true) ∧
    (tlbLookup [page 0x47] 0x1FFF 7 = some (page 0x47) ∧
      touchAllowed (page 0x47).pte .write .supervisor false = true ∧ pteD (page 0x47).pte = false) ∧
    (touchAllowed (page 0x87).pte .read .supervisor false = true ∧ pteA (page 0x87).pte = false) ∧
    RamAt (paged 0x47 []) (page 0x47).pteAddr 8 ∧ Memory.wf (paged 0x47 []).mem = true :=
  ⟨by decide, by decide, by decide, ramAt_of (by decide), by decide⟩

theorem witness_WalkClassifiesEntries :
    RamAt (paged 0xC7 []) (pteAddress 0x80012 0x1000 0) 8 ∧
    (Memory.readLE (paged 0xC7 []).mem (pteAddress 0x80012 0x1000 0).toNat 8 = 0x200080C7 ∧
      pteV 0x200080C7 = true ∧ pteR 0x200080C7 = true ∧ pteA 0x200080C7 = true ∧ pteD 0x200080C7 = true ∧
      touchAllowed 0x200080C7 .write .supervisor false = true) ∧
    (Memory.readLE (paged 0xC7 []).mem (pteAddress 0x80010 0x1000 2).toNat 8 = 0x20004401 ∧
      pteV 0x20004401 = true ∧ pteR 0x20004401 = false ∧ pteW 0x20004401 = false ∧ pteX 0x20004401 = false) ∧
    (pteV 0xC6 = false ∧ pteW 0xC5 = true ∧ pteR 0xC5 = false) ∧
    (pteX 0xC9 = true ∧ pteW 0xC9 = false) ∧
    (Memory.readLE (paged 0x47 []).mem (pteAddress 0x80012 0x1000 0).toNat 8 = 0x20008047 ∧
      touchAllowed 0x20008047 .write .supervisor false = true ∧ pteD 0x20008047 = false ∧
      pteA 0x20008007 = false ∧ Memory.wf (paged 0x47 []).mem = true) ∧
    RamAt (paged 0x47 []) (pteAddress 0x80012 0x1000 0) 8 :=
  ⟨ramAt_of (by decide), by decide, by decide, by decide, by decide, by decide, ramAt_of (by decide)⟩

theorem witness_LeafKeepsThePageOffset : (0 : Nat) < 5 ∧ (4 : Nat) < 5 ∧ 12 + 9 * 4 ≤ 48 ∧ (48 : Nat) < 56 := by decide

theorem witness_TlbInsertReplacesItsKeys :
    let lo := (page 0xC7).vbase.toNat / 4096
    let hi := lo + (page 0xC7).size / 4096
    (0 = (page 0xC7).asidKey ∧ lo ≤ 1 ∧ 1 < hi) ∧ ¬(0 = (page 0xC7).asidKey ∧ lo ≤ 2 ∧ 2 < hi) := by decide

theorem witness_TlbDropsOnlyRemove :
    ({ Config.default with tlbMayDrop := false } : Config).tlbMayDrop = false ∧
    ∃ e, tlbFind (dropTlb { (paged 0xC7 []).withTlb [page 0xC7] with
      cfg := { Config.default with tlbMayDrop := false } }).hart.tlb 1 0 = some e := by
  refine ⟨rfl, page 0xC7, ?_⟩
  rw [dropTlb_idle (.inl rfl)]; decide

theorem witness_DataAccesses :
    (∃ s1, translate 0x1000 .read (paged 0xC5 [(11, 0x1000)]) = .raise .loadPageFault 0x1000 s1) ∧
    (∃ s1, translate 0x1000 .write (paged 0xC3 [(11, 0x1000)]) = .raise .storeAmoPageFault 0x1000 s1) ∧
    (∃ s1, translate 0x1FF9 .read (paged 0xC7 [(11, 0x1FF9)]) = .ok 0x80020FF9 s1) ∧
    (∃ s1, translate 0x1FF9 .write (paged 0xC7 [(11, 0x1FF9)]) = .ok 0x80020FF9 s1) ∧
    ((paged 0xC7 []).hart.priv ≠ .machine ∧ satpMode (paged 0xC7 []).hart.csr.satp ≠ 0 ∧
      (0x1FF9 : Word).toNat % 4096 + 8 > 4096) ∧
    (∃ s1, translate 0x1FF8 .read (paged 0xC7 [(11, 0x1FF8)]) = .ok 0x80020FF8 s1) ∧
    (∃ s1, translate 0x1FF8 .write (paged 0xC7 [(11, 0x1FF8)]) = .ok 0x80020FF8 s1) ∧
    ((0x1FF8 : Word).toNat % 4096 + 8 ≤ 4096 ∧ (paged 0xC7 []).cfg.fpMemoryOps = .implemented) ∧
    RamAt (paged 0xC7 []) 0x80020FF8 8 ∧ Untranslated base :=
  ⟨exists_raise (by decide), exists_raise (by decide), exists_ok (by decide), exists_ok (by decide), by decide,
    exists_ok (by decide), exists_ok (by decide), by decide, ramAt_of (by decide), .inl (by decide)⟩

theorem witness_AtomicAccesses :
    (let s := paged 0xC7 [(11, 0x1FFC)]
     (s.readX 11).toNat % 4 = 0 ∧ ∃ s1, translate 0x1FFC .write s = .ok 0x80020FFC s1) ∧
    (let s := paged 0xC3 [(11, 0x1FF8)]
     (s.readX 11).toNat % 8 = 0 ∧ ∃ s1, translate 0x1FF8 .write s = .raise .storeAmoPageFault 0x1FF8 s1) ∧
    (∃ s1, translate 0x1FF8 .read (paged 0xC5 [(11, 0x1FF8)]) = .raise .loadPageFault 0x1FF8 s1) ∧
    RamAt (paged 0xC7 []) 0x80020FFC 4 :=
  ⟨⟨by decide, exists_ok (by decide)⟩, ⟨by decide, exists_raise (by decide)⟩, exists_raise (by decide),
    ramAt_of (by decide)⟩

/-- The supervisor about to fetch from a data page, and a 4-byte instruction whose second parcel is there. -/
def fetching (flags pc : Word) : State := ((paged flags []).withPc pc).withSleeping false

theorem witness_InstructionPageFaults :
    (∃ s1, translate 0x1000 .fetch (fetching 0xC7 0x1000) = .raise .instructionPageFault 0x1000 s1) ∧
    HandlerInstalled 12 (fetching 0xC7 0x1000).hart ∧
    let s := store8 0x80020FFE 2 3 (fetching 0xCF 0x1FFE)
    (∃ s1 s2 s3, translate s.hart.pc .fetch s = .ok 0x80020FFE s1 ∧ busRead 0x80020FFE 2 s1 = .ok 3 s2 ∧
      (3 : Word) &&& 3 = 3 ∧ translate (s.hart.pc + 2) .fetch s2 = .raise .instructionPageFault 0x2000 s3) := by
  refine ⟨exists_raise (by decide), ⟨fun _ => by decide, fun _ => by decide⟩, ?_⟩
  exact ⟨_, _, _, rfl, rfl, rfl, rfl⟩

/-- The page at virtual address 0x1000 with its translation to an address that no range answers. -/
def astray (e : TlbEntry) (xs : List (BitVec 5 × Word)) : State :=
  (paged 0xCF xs).withTlb [{ e with pbase := 0x90000000 }]

theorem witness_UnansweredAccessIsBusFault :
    let none := fun (a : Word) (n : Nat) =>
      ∀ r, r ∈ base.cfg.busMap → ¬(r.base ≤ a.toNat ∧ a.toNat + n ≤ r.base + r.size)
    -- the addresses: across the end of the range, before it, after it, past the top, and where `astray` translates to
    (none 0x801FFFF9 8 ∧ none 0x7FFFFFFE 2 ∧ none 0x80200000 2 ∧ none 0x80200000 4 ∧ none 0x80200000 8 ∧
      2 ^ 64 < (0xFFFFFFFFFFFFFFFF : Word).toNat + 2 ∧ none 0x90000FF8 8 ∧ none 0x90000FFC 4 ∧ none 0x90000FFC 2) ∧
    -- a page-table entry to read, and one to write back
    (pteAddress 0x80200 0 1 = 0x80200000 ∧
      let e := { page 0x47 with pteAddr := 0x80200000 }
      let s := (paged 0x47 [(11, 0x1FF8)]).withTlb [e]
      touchAllowed e.pte .write s.hart.priv (statusSUM s.hart.csr.mstatus) = true ∧ pteD e.pte = false ∧
        tlbLookup s.hart.tlb 0x1FF8 7 = some e ∧ translate 0x1FF8 .write s = .fault .busFault ∧
        effectiveAddress 11 (sext (0 : BitVec 12)) s = 0x1FF8 ∧ (s.readX 11).toNat % 8 = 0) ∧
    -- the accesses of data, translated and not
    (Untranslated base ∧ effectiveAddress 11 (sext (1 : BitVec 12)) (start [(11, 0x801FFFF8)]) = 0x801FFFF9 ∧
      let s := astray (page 0xCF) [(11, 0x1FF8)]
      (∃ s1, translate 0x1FF8 .read s = .ok 0x90000FF8 s1) ∧ (∃ s1, translate 0x1FF8 .write s = .ok 0x90000FF8 s1) ∧
        (0x1FF8 : Word).toNat % 4096 + 8 ≤ 4096 ∧ s.cfg.fpMemoryOps = .implemented ∧ (s.readX 11).toNat % 8 = 0) ∧
    -- the parcels of a fetch, and its translation
    ((∃ s1, translate 0x1FFC .fetch (astray (page 0xCF) []) = .ok 0x90000FFC s1) ∧
      (∃ s1, translate 0x80200000 .fetch (base.withPc 0x80200000) = .ok 0x80200000 s1) ∧
      (let s := store8 0x801FFFFE 2 3 (base.withPc 0x801FFFFE)
       ∃ s1 s2 s3, translate s.hart.pc .fetch s = .ok 0x801FFFFE s1 ∧ busRead 0x801FFFFE 2 s1 = .ok 3 s2 ∧
         (3 : Word) &&& 3 = 3 ∧ translate (s.hart.pc + 2) .fetch s2 = .ok 0x80200000 s3) ∧
      (let s := ((paged 0x0F []).withTlb [{ page 0x0F with pteAddr := 0x80200000 }]).withPc 0x1000
       translate s.hart.pc .fetch s = .fault .busFault ∧ fetch s = .fault .busFault)) := by
  refine ⟨by decide, ⟨by decide, by decide, by decide, by decide, rfl, by decide⟩,
    ⟨.inl (by decide), by decide, exists_ok (by decide), exists_ok (by decide), by decide⟩,
    exists_ok (by decide), exists_ok (by decide), ⟨_, _, _, rfl, rfl, rfl, rfl⟩, rfl, rfl⟩

/-- Memory answers the last 8 bytes of the range, and the first, in M-mode. -/
theorem witness_Loads :
    (∀ n, n ∈ [1, 2, 4, 8] → Answered base 0x80000000 n) ∧ Answered base 0x801FFFFF 1 ∧ Answered base 0x801FFFF8 8 ∧
    effectiveAddress 11 (sext (0xFF8 : BitVec 12)) (start [(11, 0x80200000)]) = 0x801FFFF8 := by
  refine ⟨fun n hn => ?_, answered_of (by decide) (by decide), answered_of (by decide) (by decide), by decide⟩
  simp only [List.mem_cons, List.not_mem_nil, or_false] at hn
  rcases hn with rfl | rfl | rfl | rfl <;> exact answered_of (by decide) (by decide)

theorem witness_Stores : Answered base 0x801FFFFF 1 ∧ Memory.wf base.mem = true :=
  ⟨answered_of (by decide) (by decide), by decide⟩

theorem witness_LoadReservedStoreConditional :
    let s := start [(11, 0x801FFFF8)]
    Memory.wf s.mem = true ∧ (s.readX 11).toNat % 4 = 0 ∧ (s.readX 11).toNat % 8 = 0 ∧ Answered s (s.readX 11) 4 ∧
      Answered s (s.readX 11) 8 :=
  ⟨by decide, by decide, by decide, answered_of (by decide) (by decide), answered_of (by decide) (by decide)⟩

theorem witness_AtomicOperations :
    (let s := start [(11, 0x801FFFFC), (12, 1)]
     Memory.wf s.mem = true ∧ (s.readX 11).toNat % 4 = 0 ∧ Answered s (s.readX 11) 4) ∧
    (let s := start [(11, 0x801FFFF8), (12, 1)]
     Memory.wf s.mem = true ∧ (s.readX 11).toNat % 8 = 0 ∧ Answered s (s.readX 11) 8) :=
  ⟨⟨by decide, by decide, answered_of (by decide) (by decide)⟩,
    by decide, by decide, answered_of (by decide) (by decide)⟩

theorem witness_MisalignedAtomicsTrap :
    let s := start [(11, 0x80000002)]
    let s4 := start [(11, 0x80000004)]
    (s.readX 11).toNat % 4 ≠ 0 ∧ (s4.readX 11).toNat % 8 ≠ 0 ∧ HandlerInstalled 4 s.hart ∧ HandlerInstalled 6 s4.hart :=
  ⟨by decide, by decide, ⟨fun _ => by decide, fun _ => by decide⟩, ⟨fun _ => by decide, fun _ => by decide⟩⟩

theorem witness_CompressedLoadsAndStores :
    let s := start [(11, 0x801FFF00), (2, 0x801FFE00)]
    Memory.wf s.mem = true ∧ Answered s (effectiveAddress (primed 3) (zext (0x7C : BitVec 7)) s) 4 ∧
      Answered s (effectiveAddress (primed 3) (zext (0xF8 : BitVec 8)) s) 8 ∧
      Answered s (effectiveAddress 2 (zext (0xFC : BitVec 8)) s) 4 ∧
      Answered s (effectiveAddress 2 (zext (0x1F8 : BitVec 9)) s) 8 :=
  ⟨by decide, answered_of (by decide) (by decide), answered_of (by decide) (by decide),
    answered_of (by decide) (by decide), answered_of (by decide) (by decide)⟩

theorem witness_FpLoadsAndStores :
    let s := start [(11, 0x801FFF00), (2, 0x801FFE00)]
    s.cfg.fpMemoryOps = .implemented ∧ Memory.wf s.mem = true ∧
      Answered s (effectiveAddress 11 (sext (0xFC : BitVec 12)) s) 4 ∧
      Answered s (effectiveAddress 11 (sext (0xF8 : BitVec 12)) s) 8 ∧
      Answered s (effectiveAddress (primed 3) (zext (0xF8 : BitVec 8)) s) 8 ∧
      Answered s (effectiveAddress 2 (zext (0x1F8 : BitVec 9)) s) 8 :=
  ⟨by decide, by decide, answered_of (by decide) (by decide), answered_of (by decide) (by decide),
    answered_of (by decide) (by decide), answered_of (by decide) (by decide)⟩

/-- After reset with the FP memory operations stubbed. -/
def stubbed : State := { base with cfg := { base.cfg with fpMemoryOps := .stub } }

theorem witness_FpMovesAndStubs :
    base.cfg.fpMemoryOps = .implemented ∧
    stubbed.cfg.fpMemoryOps = .stub ∧ HandlerInstalled 2 stubbed.hart ∧
    (Instr.cFsdsp 1 0).op ∈ [Op.flw, .fld, .fsw, .fsd, .fmvXW, .fmvWX, .fmvXD, .fmvDX, .cFld, .cFsd, .cFldsp, .cFsdsp] :=
  ⟨by decide, by decide, handler_base 2, by decide⟩

theorem witness_UnsupportedInstructionsRaiseIllegal :
    HandlerInstalled 2 base.hart ∧ HandlerInstalled 2 user.hart ∧ (Instr.faddS 1 2 3 7).op ∈ [Op.faddS] ∧
    (Instr.cboZero 1).op ∈ [Op.cboZero] := ⟨handler_base 2, handler_user 2, by decide, by decide⟩

theorem witness_ResetLeavesTheSpecsValues :
    Config.default.wf = true ∧ Config.default.csrTable = csrTable ∧
    csrFind otherTables.csrTable 0x800 = some ⟨0x800, 0xFF0, .storage, .value 0x123⟩ := ⟨by decide, rfl, by decide⟩

theorem witness_LaterReset :
    ({ base with schedule := [[.reset], []] } : State).schedule = [.reset] :: [[]] ∧
    csrFind base.cfg.csrTable 0xF14 = some ⟨0xF14, 0, .storage, .hartid⟩ := ⟨rfl, by decide⟩

theorem witness_ResetMeetsTheInvariant :
    (Config.default.wf = true ∧ Registry.accepts Config.default.isaTable = true ∧ Config.default.csrTable = csrTable) ∧
    ({ otherTables with csrTable := csrTable }.wf = true ∧
      Registry.accepts ({ otherTables with csrTable := csrTable } : Config).isaTable = true) ∧
    Memory.wf [(0x80000000, 1)] = true :=
  ⟨⟨by decide, accepts_default, rfl⟩, ⟨by decide, by decide⟩, by decide⟩

theorem witness_StepKeepsTheInvariant : base.Inv ∧ ∃ t, step base = .next t :=
  ⟨⟨by decide, accepts_default, rfl, by decide, inv_base, by intro h hh; cases hh⟩, exists_next (by decide)⟩

theorem witness_OnlyReturnsLowerPrivilege :
    ∃ t, exec .mret base = .next t ∧ t.hart.priv.code < base.hart.priv.code := ⟨_, rfl, by decide⟩

theorem witness_UserModeChangesOnlyFcsr :
    user.cfg.csrTable = csrTable ∧ user.hart.priv = .user ∧
    ∃ t, exec (.csrrwi 5 0x1F 0x003) user = .next t ∧ t.hart.priv = .user := by
  refine ⟨rfl, by decide, ?_⟩
  obtain ⟨t, ht⟩ := exists_next (r := exec (.csrrwi 5 0x1F 0x003) user) (by decide)
  refine ⟨t, ht, ?_⟩
  have : privOf (exec (.csrrwi 5 0x1F 0x003) user) = some .user := by decide
  rw [ht] at this
  exact Option.some.inj this

theorem witness_InstructionsTouchOnlyTheirHart : ∃ t, exec (.add 5 6 7) base = .next t := ⟨_, rfl⟩

end Sys2Proof.Tests
end

section
/-! What one instruction can do, said once for all of them: its next state is one of nine (R203, R204). -/

namespace Sys2Proof.Machine

/-! ### Even addresses (R41) -/

theorem and_one_eq_zero_iff {w : Nat} (v : BitVec w) : v &&& 1 = 0 ↔ v.getLsbD 0 = false := by
  constructor
  · intro h
    have h0 := congrArg (BitVec.getLsbD · 0) h
    rcases Nat.eq_zero_or_pos w with rfl | hw
    · simp
    · simpa [hw] using h0
  · intro h
    ext i hi
    rcases Nat.eq_zero_or_pos i with rfl | hpos
    · rw [← BitVec.getLsbD_eq_getElem, BitVec.getLsbD_and, h]
      simp
    · simp [Nat.pos_iff_ne_zero.mp hpos]

/-- An offset whose bit 0 no segment produces leads from an even address to an even one. -/
theorem add_sext_even {w : Nat} {pc : Word} {imm : BitVec w} (himm : lowZeros 1 imm = true) (hpc : pc &&& 1 = 0) :
    (pc + sext imm) &&& 1 = 0 := by
  have himm0 : imm.getLsbD 0 = false := (and_one_eq_zero_iff imm).mp (by simpa [lowZeros] using himm)
  rw [and_one_eq_zero_iff] at hpc ⊢
  have hsext : (sext imm).getLsbD 0 = false := by
    rw [sext, BitVec.getLsbD_signExtend, himm0]
    rcases Nat.eq_zero_or_pos w with rfl | hw
    · simp [BitVec.msb_eq_getLsbD_last]
    · simp [hw]
  rw [BitVec.getLsbD_add (by decide), hpc, hsext]
  simp

theorem clearBit0_even (v : Word) : clearBit0 v &&& 1 = 0 := by
  rw [and_one_eq_zero_iff]
  simp [clearBit0]

/-! ### The next states -/

/-- The state after a return from a trap (R651). -/
def returnState (priv : Priv) (status target : Word) (s : State) : State :=
  ((s.withCsr (s.hart.csr.set .mstatus status)).withPriv priv).withPc target

/-- The states an instruction can lead to. An operation that may raise goes through a state that only translation and the bus
have changed (`MmuStep`). -/
inductive Effect (i : Instr) (s : State) : State → Prop
  /-- An exception is taken (R204). -/
  | traps {u : State} (e : Exc) (tval : Word) (hu : MmuStep s u) :
      Effect i s (trapState (.exception e) tval u.hart.pc u)
  /-- A general register is written, x0 if none is, and the pc advances (R203). -/
  | writesX {u : State} (rd : BitVec 5) (v : Word) (l : InsnLength) (hu : MmuStep s u) :
      Effect i s ((u.writeX rd v).retire l.bytes)
  /-- A floating-point register is written and the pc advances. -/
  | writesF {u : State} (rd : BitVec 5) (v : Word) (l : InsnLength) (hu : MmuStep s u) :
      Effect i s ((u.writeF rd v).retire l.bytes)
  /-- A jump or a taken branch, from an even address to an even one (R41, R320 to R328). -/
  | jumps (rd : BitVec 5) (v target : Word)
      (heven : i.wellFormed = true → s.hart.pc &&& 1 = 0 → target &&& 1 = 0) :
      Effect i s ((s.writeX rd v).withPc target)
  /-- A CSR that may be read and written at this privilege is written (R410). -/
  | writesCsr (a : BitVec 12) (new : Word) (d : Nat) (rd : BitVec 5) (old : Word)
      (hread : csrReadable s.cfg.csrTable a s.hart.priv = true) (hwrite : csrWritable s.cfg.csrTable a = true) :
      Effect i s (((csrWrite a new (s.withDraws d)).writeX rd old).retire 4)
  /-- The semihosting flag changes (R429). -/
  | setsSemihosting (b : Bool) (rd : BitVec 5) (v : Word) : Effect i s (((s.withSemihosting b).writeX rd v).retire 4)
  /-- The hart goes to sleep (R427). -/
  | sleeps (hi : i = .wfi) : Effect i s ((s.withSleeping true).retire 4)
  /-- A return from a supervisor trap (R425). -/
  | returnsS (hi : i = .sret) (hpriv : s.hart.priv ≠ .user) :
      Effect i s (returnState (sretPriv s.hart.csr.mstatus) (statusSret s.hart.csr.mstatus) s.hart.csr.sepc s)
  /-- A return from a machine trap (R426). -/
  | returnsM {p : Priv} (hi : i = .mret) (hpriv : s.hart.priv = .machine)
      (hmpp : Priv.ofCode (statusMPP s.hart.csr.mstatus) = some p) :
      Effect i s (returnState p (statusMret s.hart.csr.mstatus) s.hart.csr.mepc s)

section
variable {i : Instr} {s t u : State} {rd rs1 rs2 : BitVec 5}

/-! ### The shared operations -/

theorem raiseExc_effect {e : Exc} {tval : Word} (hu : MmuStep s u) (h : raiseExc e tval u = .next t) : Effect i s t := by
  obtain ⟨-, rfl⟩ := takeTrap_eq_next h
  exact .traps e tval hu

theorem MmuStep_withDraws (s : State) (d : Nat) : MmuStep s (s.withDraws d) := ⟨rfl, id⟩

theorem illegal_effect (h : illegal s = .next t) : Effect i s t := raiseExc_effect (MmuStep_withDraws s _) h

theorem breakpoint_effect (h : breakpoint s = .next t) : Effect i s t := by
  unfold breakpoint at h
  split at h
  · cases h
  · exact raiseExc_effect (MmuStep_refl s) h

/-- After an operation that changes what translation and the bus change, the rest of the instruction decides. -/
theorem run_effect {α : Type} {r : Res α} {k : α → State → Result} (hr : r.Post (MmuStep s))
    (hk : ∀ a u, MmuStep s u → k a u = .next t → Effect i s t) (h : r.run k = .next t) : Effect i s t := by
  rcases run_eq_next h with ⟨a, u, rfl, hu⟩ | ⟨e, v, u, rfl, hu⟩
  · exact hk a u hr hu
  · exact raiseExc_effect hr hu

theorem finish_writeX_effect {v : Word} (l : InsnLength) (hu : MmuStep s u)
    (h : finish l.bytes (u.writeX rd v) = .next t) : Effect i s t := by
  cases h
  exact .writesX rd v l hu

theorem finish_writeF_effect {v : Word} (l : InsnLength) (hu : MmuStep s u)
    (h : finish l.bytes (u.writeF rd v) = .next t) : Effect i s t := by
  cases h
  exact .writesF rd v l hu

theorem finish_effect (l : InsnLength) (hu : MmuStep s u) (h : finish l.bytes u = .next t) : Effect i s t :=
  finish_writeX_effect (rd := 0) (v := 0) l hu h

theorem setX_effect {v : Word} (l : InsnLength) (h : setX l.bytes rd v s = .next t) : Effect i s t :=
  finish_writeX_effect l (MmuStep_refl s) h

theorem link_effect {target : Word} {len : Nat} (heven : i.wellFormed = true → s.hart.pc &&& 1 = 0 → target &&& 1 = 0)
    (h : link len rd target s = .next t) : Effect i s t := by
  cases h
  exact .jumps rd _ target heven

theorem branch_effect {w : Nat} {cond : Bool} {imm : BitVec w} (l : InsnLength)
    (hi : i.wellFormed = true → lowZeros 1 imm = true)
    (h : branch l.bytes cond (sext imm) s = .next t) : Effect i s t := by
  cases cond
  · exact finish_effect l (MmuStep_refl s) h
  · cases h
    exact .jumps 0 0 _ fun hwf hpc => add_sext_even (hi hwf) hpc

theorem load_effect {n : Nat} {extend : Word → Word} {ea : Word} (l : InsnLength)
    (h : load l.bytes n extend rd ea s = .next t) : Effect i s t :=
  run_effect (memRead_post ea n s) (fun _ _ hu => finish_writeX_effect l hu) h

theorem loadF_effect {n : Nat} {box : Word → Word} {ea : Word} (l : InsnLength)
    (h : loadF l.bytes n box rd ea s = .next t) : Effect i s t :=
  run_effect (memRead_post ea n s) (fun _ _ hu => finish_writeF_effect l hu) h

theorem store_effect {n : Nat} {v ea : Word} (l : InsnLength) (h : store l.bytes n v ea s = .next t) : Effect i s t :=
  run_effect (memWrite_post ea n v s) (fun _ _ hu => finish_effect l hu) h

theorem loadReserved_effect {n : Nat} (h : loadReserved n rd rs1 s = .next t) : Effect i s t := by
  unfold loadReserved at h
  dsimp only at h
  split at h
  · exact load_effect s.len h
  · exact raiseExc_effect (MmuStep_refl s) h

theorem storeConditional_effect {n : Nat} (h : storeConditional n rd rs1 rs2 s = .next t) : Effect i s t := by
  unfold storeConditional at h
  dsimp only at h
  split at h
  · exact run_effect (memWrite_post _ n _ s) (fun _ _ hu => finish_writeX_effect s.len hu) h
  · exact raiseExc_effect (MmuStep_refl s) h

theorem amo_effect {n : Nat} {op : BitVec (8 * n) → BitVec (8 * n) → BitVec (8 * n)}
    (h : amo n op rd rs1 rs2 s = .next t) : Effect i s t := by
  unfold amo at h
  dsimp only at h
  split at h
  · refine run_effect (translate_post _ .write s) (fun pa s1 h1 => ?_) h
    refine run_effect (Post_mono (busRead_post pa n s1) fun _ => MmuStep_trans h1) fun old s2 h2 => ?_
    exact run_effect (Post_mono (busWrite_post pa n _ s2) fun _ => MmuStep_trans h2) fun _ _ h3 =>
      finish_writeX_effect s.len h3
  · exact raiseExc_effect (MmuStep_refl s) h

/-- With `FP_MEMORY_OPS` at stub the instruction raises IllegalInstruction (R490). -/
theorem fpGate_effect {act : State → Result} (hact : act s = .next t → Effect i s t) (h : fpGate act s = .next t) :
    Effect i s t := by
  unfold fpGate at h
  split at h
  · exact hact h
  · exact illegal_effect h

/-- A move into a general register (R495, R497). -/
theorem fpMoveX_effect {v : State → Word} (h : fpGate (fun u => finish u.len.bytes (u.writeX rd (v u))) s = .next t) :
    Effect i s t := fpGate_effect (finish_writeX_effect s.len (MmuStep_refl s)) h

/-- A move into a floating-point register (R496, R498). -/
theorem fpMoveF_effect {v : State → Word} (h : fpGate (fun u => finish u.len.bytes (u.writeF rd (v u))) s = .next t) :
    Effect i s t := fpGate_effect (finish_writeF_effect s.len (MmuStep_refl s)) h

/-- The end of a CSR instruction that passed the checks: the write, if there is one, and the old value into `rd`. -/
theorem csrFinish_effect {writes : Bool} {a : BitVec 12} {new old : Word} {d : Nat}
    (hread : csrReadable s.cfg.csrTable a s.hart.priv = true)
    (hwrite : (!writes || csrWritable s.cfg.csrTable a) = true)
    (h : finish 4 ((if writes then csrWrite a new (s.withDraws d) else s.withDraws d).writeX rd old) = .next t) :
    Effect i s t := by
  cases h
  cases writes with
  | false => exact .writesX rd old .four (MmuStep_withDraws s d)
  | true => exact .writesCsr a new d rd old hread (by simpa using hwrite)

theorem csrInstr_effect {reads writes : Bool} {a : BitVec 12} {new : Word → Word}
    (h : csrInstr reads writes a rd new s = .next t) : Effect i s t := by
  unfold csrInstr at h
  split at h
  case isFalse => exact illegal_effect h
  case isTrue hread =>
    split at h
    · cases h
    · split at h
      case isFalse => exact illegal_effect h
      case isTrue hwrite =>
        split at h
        · split at h
          · next hv =>
            obtain ⟨d, rfl⟩ := csrValue_state hv
            exact csrFinish_effect hread hwrite h
          · cases h
        · exact csrFinish_effect (rd := 0) (old := 0) (d := s.draws) hread hwrite h

theorem exec_slli_effect {shamt : BitVec 6} (h : exec (.slli rd rs1 shamt) s = .next t) : Effect i s t := by
  replace h : setX 4 rd _ (toggleSemihosting rd rs1 shamt s) = .next t := h
  unfold toggleSemihosting at h
  split at h
  · cases h
    exact .setsSemihosting _ rd _
  · exact setX_effect .four h

theorem exec_sret_effect (h : exec .sret s = .next t) : Effect .sret s t := by
  replace h : execSret s = .next t := h
  unfold execSret at h
  split at h
  · exact illegal_effect h
  · next hpriv =>
    cases h
    exact .returnsS rfl hpriv

theorem exec_mret_effect (h : exec .mret s = .next t) : Effect .mret s t := by
  replace h : execMret s = .next t := h
  unfold execMret at h
  split at h
  · exact illegal_effect h
  · next hpriv =>
    split at h
    · next hmpp =>
      cases h
      exact .returnsM rfl (not_not.mp hpriv) hmpp
    · cases h

theorem exec_sfenceVma_effect (h : exec (.sfenceVma rs1 rs2) s = .next t) : Effect i s t := by
  replace h : execSfenceVma rs1 rs2 s = .next t := h
  unfold execSfenceVma at h
  split at h
  · exact illegal_effect h
  · exact finish_effect s.len (MmuStep_withTlb s _) h

/-! ### Every instruction -/

/-- Each instruction is one of the shared operations above, so each has one of the effects. -/
theorem exec_effect (h : exec i s = .next t) : Effect i s t := by
  cases i with
  | lui | auipc | addi | slti | sltiu | xori | ori | andi | srli | srai | addiw | slliw | srliw | sraiw | add | sub
  | sll | slt | sltu | xor | srl | sra | or | and | addw | subw | sllw | srlw | sraw | mul | mulh | mulhsu | mulhu
  | div | divu | rem | remu | mulw | divw | divuw | remw | remuw => exact setX_effect .four h
  | cAddi4spn | cAddi | cAddiw | cLi | cAddi16sp | cLui | cSrli | cSrai | cAndi | cSlli | cSub | cXor | cOr | cAnd
  | cSubw | cAddw | cMv | cAdd => exact setX_effect .two h
  | slli => exact exec_slli_effect h
  | jal rd imm => exact link_effect add_sext_even h
  | cJ imm => exact link_effect add_sext_even h
  | jalr | cJr | cJalr => exact link_effect (fun _ _ => clearBit0_even _) h
  | beq | bne | blt | bge | bltu | bgeu => exact branch_effect .four id h
  | cBeqz | cBnez => exact branch_effect .two id h
  | lb | lh | lw | ld | lbu | lhu | lwu => exact load_effect s.len h
  | cLw | cLd | cLwsp | cLdsp => exact load_effect .two h
  | sb | sh | sw | sd => exact store_effect s.len h
  | cSw | cSd | cSwsp | cSdsp => exact store_effect .two h
  | lrW | lrD => exact loadReserved_effect h
  | scW | scD => exact storeConditional_effect h
  | amoswapW | amoaddW | amoxorW | amoandW | amoorW | amominW | amomaxW | amominuW | amomaxuW | amoswapD | amoaddD
  | amoxorD | amoandD | amoorD | amominD | amomaxD | amominuD | amomaxuD => exact amo_effect h
  | csrrw | csrrs | csrrc | csrrwi | csrrsi | csrrci => exact csrInstr_effect h
  | fence | fenceI => exact finish_effect .four (MmuStep_refl s) h
  | ecall => exact raiseExc_effect (MmuStep_refl s) h
  | ebreak | cEbreak => exact breakpoint_effect h
  | sret => exact exec_sret_effect h
  | mret => exact exec_mret_effect h
  | wfi => cases h; exact .sleeps rfl
  | sfenceVma => exact exec_sfenceVma_effect h
  | flw | fld => exact fpGate_effect (loadF_effect s.len) h
  | cFld | cFldsp => exact fpGate_effect (loadF_effect .two) h
  | fsw | fsd => exact fpGate_effect (store_effect s.len) h
  | cFsd | cFsdsp => exact fpGate_effect (store_effect .two) h
  | fmvXW rd rs1 => exact fpMoveX_effect (show execFmvXW rd rs1 s = .next t from h)
  | fmvXD rd rs1 => exact fpMoveX_effect (show execFmvXD rd rs1 s = .next t from h)
  | fmvWX rd rs1 => exact fpMoveF_effect (show execFmvWX rd rs1 s = .next t from h)
  | fmvDX rd rs1 => exact fpMoveF_effect (show execFmvDX rd rs1 s = .next t from h)
  | faddS | fsubS | fmulS | fdivS | fsqrtS | fsgnjS | fsgnjnS | fsgnjxS | fminS | fmaxS | feqS | fltS | fleS | fclassS
  | fcvtWS | fcvtWuS | fcvtLS | fcvtLuS | fcvtSW | fcvtSWu | fcvtSL | fcvtSLu | faddD | fsubD | fmulD | fdivD | fsqrtD
  | fsgnjD | fsgnjnD | fsgnjxD | fminD | fmaxD | feqD | fltD | fleD | fclassD | fcvtWD | fcvtWuD | fcvtLD | fcvtLuD
  | fcvtDW | fcvtDWu | fcvtDL | fcvtDLu | fcvtSD | fcvtDS | fmaddS | fmsubS | fnmsubS | fnmaddS | fmaddD | fmsubD
  | fnmsubD | fnmaddD | hfenceVvma | hfenceGvma | hlvB | hlvBu | hlvH | hlvHu | hlvxHu | hlvW | hlvWu | hlvxWu | hlvD
  | hsvB | hsvH | hsvW | hsvD | cboInval | cboClean | cboFlush | cboZero | vectorOp | vectorLoadW8 | vectorLoadW16
  | vectorLoadW32 | vectorLoadW64 | vectorStoreW8 | vectorStoreW16 | vectorStoreW32 | vectorStoreW64 =>
    exact illegal_effect h

end

/-! ### What lies outside the hart -/

/-- What surrounds the hart that steps is the same in two states: the other harts, the inputs, the hart's identity and the
parameters (R9, R79, R669). -/
def SameSurroundings (s t : State) : Prop :=
  t.others = s.others ∧ t.hart.hartid = s.hart.hartid ∧ t.hart.lines = s.hart.lines ∧ t.mtime = s.mtime ∧
  t.schedule = s.schedule ∧ t.cfg = s.cfg

theorem MmuStep_surroundings {s t : State} (h : MmuStep s t) : SameSurroundings s t := by
  obtain ⟨-, -, -, -, -, -, -, hhartid, hlines, hothers, hmtime, hschedule, hcfg, -⟩ := MmuStep_fields h
  exact ⟨hothers, hhartid, hlines, hmtime, hschedule, hcfg⟩

theorem csrWrite_surroundings (a : BitVec 12) (v : Word) (s : State) : SameSurroundings s (csrWrite a v s) := by
  obtain ⟨f, d, h⟩ := csrWrite_state a v s
  rw [h]
  exact ⟨rfl, rfl, rfl, rfl, rfl, rfl⟩

/-- No effect of an instruction reaches beyond its hart, memory, the free values and the device log. -/
theorem Effect_surroundings {i : Instr} {s t : State} (h : Effect i s t) : SameSurroundings s t := by
  cases h with
  | traps e tval hu => simpa [SameSurroundings] using MmuStep_surroundings hu
  | writesX rd v l hu => simpa [SameSurroundings] using MmuStep_surroundings hu
  | writesF rd v l hu => simpa [SameSurroundings] using MmuStep_surroundings hu
  | jumps rd v target heven => simp [SameSurroundings]
  | writesCsr a new d rd old hread hwrite =>
    simpa [SameSurroundings] using csrWrite_surroundings a new (s.withDraws d)
  | setsSemihosting b rd v => simp [SameSurroundings]
  | sleeps hi => simp [SameSurroundings]
  | returnsS hi hpriv => simp [SameSurroundings, returnState]
  | returnsM hi hpriv hmpp => simp [SameSurroundings, returnState]

/-- Settles O60: every next state of an instruction is one of its effects, and each effect keeps the surroundings. -/
theorem instructionsTouchOnlyTheirHart : Obligations.InstructionsTouchOnlyTheirHart :=
  fun _ _ _ h => Effect_surroundings (exec_effect h)

end Sys2Proof.Machine
end

section
/-! What a CSR file keeps under the default `CSR_TABLE` (R52, R62): the bits outside each storage register's mask, said of
all the table's rows at once, so that one lemma covers every masked write. -/

namespace Sys2Proof.Machine

/-! ### The bits that no write reaches -/

/-- A CSR file's part of the invariant of a hart, said by the rows of the default table: each storage register has the bits
outside its mask as reset leaves them, `mip` latches only its writable bits, and there are no other registers. -/
structure CsrInv (hartid : Word) (c : CsrFile) : Prop where
  fixed : ∀ r ∈ csrTable, r.kind = .storage →
    c.get (.ofAddr r.addr) &&& ~~~r.mask = r.reset.eval hartid &&& ~~~r.mask
  latch : c.mipLatch &&& ~~~0x222 = 0
  others : c.others = []

/-- The mask of a register that is writable in full. -/
theorem and_fullMask (v : Word) : v &&& 18446744073709551615#64 = v := by
  rw [show 18446744073709551615#64 = BitVec.allOnes 64 by decide, BitVec.and_allOnes]

/-- `mstatus` comes out of reset with two bits that no write reaches (R52, R53). -/
theorem mstatus_resetBits : (0xA00000000 : Word) &&& ~~~0x7E79AA = 0xA00000000 := by decide

/-- What the rows of the default table say of the registers that are not writable in full. -/
theorem fixedBits_iff (hartid : Word) (c : CsrFile) :
    (∀ r ∈ csrTable, r.kind = .storage → c.get (.ofAddr r.addr) &&& ~~~r.mask = r.reset.eval hartid &&& ~~~r.mask) ↔
    c.fcsr &&& ~~~0xFF = 0 ∧ c.scounteren &&& ~~~0xFFFFFFFF = 0 ∧ c.sepc &&& 1 = 0 ∧
    c.mstatus &&& ~~~0x7E79AA = 0xA00000000 ∧ c.misa = 0x800000000014112D ∧ c.medeleg &&& ~~~0xB3FF = 0 ∧
    c.mideleg &&& ~~~0x222 = 0 ∧ c.mie &&& ~~~0xAAA = 0 ∧ c.mcounteren &&& ~~~0xFFFFFFFF = 0 ∧ c.mepc &&& 1 = 0 ∧
    c.mvendorid = 0 ∧ c.marchid = 0 ∧ c.mimpid = 0 ∧ c.mhartid = hartid ∧ c.mconfigptr = 0 := by
  simp only [csrTable, csrTableU, csrTableS, csrTableM, List.cons_append, List.nil_append, List.forall_mem_cons,
    reduceCtorEq, forall_const, false_imp_iff, true_and, CsrReset.eval, mstatus_resetBits]
  simp [and_fullMask]
  exact Iff.rfl

/-- The invariant of a hart is that of x0, of the pc and of its CSR file. -/
theorem Hart_Inv_iff (h : Hart) : h.Inv ↔ h.x[0] = 0 ∧ h.pc &&& 1 = 0 ∧ CsrInv h.hartid h.csr := by
  constructor
  · intro hi
    obtain ⟨hvendor, harch, himp, hconfig⟩ := hi.ids
    exact ⟨hi.x0, hi.pc, (fixedBits_iff _ _).mpr ⟨hi.fcsr, hi.scounteren, hi.sepc, hi.mstatus, hi.misa, hi.medeleg,
      hi.mideleg, hi.mie, hi.mcounteren, hi.mepc, hvendor, harch, himp, hi.mhartid, hconfig⟩, hi.mipLatch, hi.others⟩
  · intro ⟨hx0, hpc, hfixed, hlatch, hothers⟩
    obtain ⟨hfcsr, hscounteren, hsepc, hmstatus, hmisa, hmedeleg, hmideleg, hmie, hmcounteren, hmepc, hvendor, harch, himp,
      hmhartid, hconfig⟩ := (fixedBits_iff _ _).mp hfixed
    exact ⟨hx0, hpc, hmepc, hsepc, hmstatus, hmisa, hmedeleg, hmideleg, hmie, hlatch, hfcsr, hmcounteren, hscounteren,
      hmhartid, ⟨hvendor, harch, himp, hconfig⟩, hothers⟩

/-! ### Writes -/

/-- Values that agree on every bit outside a mask. -/
theorem outside_ext {m v w : Word} (h : ∀ i, bit m i = false → bit w i = bit v i) : w &&& ~~~m = v &&& ~~~m := by
  refine BitVec.eq_of_getLsbD_eq fun i hi => ?_
  have hi' := h i
  simp only [bit] at hi'
  simp only [BitVec.getLsbD_and, BitVec.getLsbD_not, hi]
  cases hm : m.getLsbD i
  · rw [hi' hm]
  · simp

/-- A masked write reaches no bit outside its mask. -/
theorem maskedWrite_outside {m k : Word} (h : m &&& ~~~k = 0) (old v : Word) :
    maskedWrite old m v &&& ~~~k = old &&& ~~~k := by
  refine outside_ext fun i hk => ?_
  unfold bit at hk ⊢
  by_cases hi : i < 64
  · have hm := congrArg (BitVec.getLsbD · i) h
    simp only [BitVec.getLsbD_and, BitVec.getLsbD_not, hi, hk] at hm
    simp_all [maskedWrite]
  · rw [BitVec.getLsbD_of_ge _ _ (by omega), BitVec.getLsbD_of_ge _ _ (by omega)]

theorem setBit_outside {m : Word} {i : Nat} (hi : bit m i = true) (v : Word) (b : Bool) :
    setBit v i b &&& ~~~m = v &&& ~~~m := by
  refine outside_ext fun j hj => ?_
  rw [bit_setBit _ _ _ _ (BitVec.lt_of_getLsbD hi), if_neg fun h => by simp [h, hi] at hj]

theorem setField_outside {m : Word} {lo n : Nat} (hn : lo + n ≤ 64) (hm : ∀ i, lo ≤ i → i < lo + n → bit m i = true)
    (v x : Word) : setField v lo n x &&& ~~~m = v &&& ~~~m := by
  refine outside_ext fun j hj => ?_
  rw [bit_setField _ _ _ _ _ hn, if_neg fun h => by simp [hm j h.1 h.2] at hj]

/-- The default table has one row for each storage register. -/
theorem storageRow_unique : ∀ r ∈ csrTable, ∀ q ∈ csrTable, r.kind = .storage → q.kind = .storage →
    CsrReg.ofAddr r.addr = .ofAddr q.addr → r = q := by decide

theorem ofAddr_eq_other {a b : BitVec 12} (h : CsrReg.ofAddr a = .other b) : b = a := by
  unfold CsrReg.ofAddr at h
  split at h <;> cases h
  rfl

theorem CsrFile_set_others {r : CsrReg} (hr : ∀ a, r ≠ .other a) (c : CsrFile) (v : Word) :
    (c.set r v).others = c.others := by
  cases r with
  | other a => exact absurd rfl (hr a)
  | _ => rfl

/-- No storage register of the default table is one of the others. -/
theorem storageRow_ne_other {r : CsrRow} (hr : r ∈ csrTable) (hk : r.kind = .storage) (a : BitVec 12) :
    CsrReg.ofAddr r.addr ≠ .other a := by
  have hself : ∀ r ∈ csrTable, r.kind = .storage → CsrReg.ofAddr r.addr ≠ .other r.addr := by decide
  intro h
  exact hself r hr hk (ofAddr_eq_other h ▸ h)

/-- A write of a storage register that leaves the bits outside its mask keeps the invariant. -/
theorem CsrInv_set {hartid v : Word} {c : CsrFile} {r : CsrRow} (h : CsrInv hartid c) (hr : r ∈ csrTable)
    (hk : r.kind = .storage) (hv : v &&& ~~~r.mask = c.get (.ofAddr r.addr) &&& ~~~r.mask) :
    CsrInv hartid (c.set (.ofAddr r.addr) v) := by
  refine ⟨fun q hq hqk => ?_, ?_, ?_⟩
  · by_cases hreg : CsrReg.ofAddr q.addr = .ofAddr r.addr
    · obtain rfl := storageRow_unique q hq r hr hqk hk hreg
      rw [CsrFile_get_set_same, hv, h.fixed q hr hk]
    · rw [CsrFile_get_set_other _ _ _ _ hreg, h.fixed q hq hqk]
  · rw [CsrFile_set_mipLatch, h.latch]
  · rw [CsrFile_set_others (storageRow_ne_other hr hk), h.others]

/-- The terminal row of a chain of views is a row of the table, and the chain's mask lies inside the row's (R61, R64). -/
theorem csrTerminalFrom_eq_some {tbl : List CsrRow} {t : CsrRow} {n : Nat} : ∀ {a : BitVec 12} {m : Word},
    csrTerminalFrom tbl n a = some (t, m) → t ∈ tbl ∧ m &&& ~~~t.mask = 0 := by
  induction n with
  | zero => intro a m h; cases h
  | succ n ih =>
    intro a m h
    unfold csrTerminalFrom at h
    split at h
    · cases h
    · next r hr =>
      split at h
      · next base hk =>
        split at h
        · next t' m' hrest =>
          cases h
          obtain ⟨ht, hm⟩ := ih hrest
          exact ⟨ht, by rw [BitVec.and_assoc, hm]; exact BitVec.and_zero⟩
        · cases h
      · cases h
        exact ⟨List.mem_of_find?_eq_some hr, by simp⟩

/-- A CSR write of a hart keeps the invariant of its CSR file, under the default table (R52, R62, R64, R65). -/
theorem csrWrite_keeps_CsrInv {s : State} (htbl : s.cfg.csrTable = csrTable) (a : BitVec 12) (v : Word)
    (h : CsrInv s.hart.hartid s.hart.csr) : CsrInv s.hart.hartid (csrWrite a v s).hart.csr := by
  unfold csrWrite
  split
  case h_2 => exact h
  case h_1 t m ht =>
    rw [htbl] at ht
    obtain ⟨hmem, hmask⟩ := csrTerminalFrom_eq_some ht
    unfold csrRowWrite
    split
    · next hk => exact CsrInv_set h hmem hk (maskedWrite_outside hmask _ _)
    · next c hk =>
      obtain ⟨d, hd⟩ := getter_state c s
      rw [hd]
      cases c with
      | frm =>
        exact CsrInv_set (r := ⟨0x003, 0xFF, .storage, .value 0⟩) h (by decide) rfl
          (setField_outside (by decide) (by decide) _ _)
      | mip => exact ⟨h.fixed, by simp [csrSetter, BitVec.and_assoc], h.others⟩
      | cycle | time | instret => exact h
    · exact h

/-! ### Traps and returns (R642 to R644, R651) -/

/-- The fields of `mstatus` that trap entry and return write lie inside its mask (R53). -/
theorem statusTrapM_outside (v : Word) (p : Priv) : statusTrapM v p &&& ~~~0x7E79AA = v &&& ~~~0x7E79AA := by
  rw [statusTrapM, setField_outside (by decide) (by decide), setBit_outside (by decide), setBit_outside (by decide)]

theorem statusTrapS_outside (v : Word) (p : Priv) : statusTrapS v p &&& ~~~0x7E79AA = v &&& ~~~0x7E79AA := by
  rw [statusTrapS, setBit_outside (by decide), setBit_outside (by decide), setBit_outside (by decide)]

theorem statusMret_outside (v : Word) : statusMret v &&& ~~~0x7E79AA = v &&& ~~~0x7E79AA := by
  rw [statusMret, setField_outside (by decide) (by decide), setBit_outside (by decide), setBit_outside (by decide)]

theorem statusSret_outside (v : Word) : statusSret v &&& ~~~0x7E79AA = v &&& ~~~0x7E79AA := by
  rw [statusSret, setBit_outside (by decide), setBit_outside (by decide), setBit_outside (by decide)]

theorem CsrInv_set_mstatus {hartid v : Word} {c : CsrFile} (h : CsrInv hartid c)
    (hv : v &&& ~~~0x7E79AA = c.mstatus &&& ~~~0x7E79AA) : CsrInv hartid (c.set .mstatus v) :=
  CsrInv_set (r := ⟨0x300, 0x7E79AA, .storage, .value 0xA00000000⟩) h (by decide) rfl hv

/-- A register that is writable in full takes any value. -/
theorem CsrInv_set_full {hartid v : Word} {c : CsrFile} (a : BitVec 12) (h : CsrInv hartid c)
    (ha : ⟨a, 0xFFFFFFFFFFFFFFFF, .storage, .value 0⟩ ∈ csrTable) : CsrInv hartid (c.set (.ofAddr a) v) :=
  CsrInv_set h ha rfl (by simp)

/-- Trap entry keeps the invariant of the CSR file (R57, R642 to R644). -/
theorem CsrInv_trapCsr {hartid : Word} {c : CsrFile} (h : CsrInv hartid c) (target : Priv) (ev : TrapEvent) (tval epc : Word)
    (p : Priv) : CsrInv hartid (trapCsr csrTable target ev tval epc p c) := by
  have hmepc : CsrInv hartid (c.set .mepc (maskedWrite c.mepc (savedPcMask csrTable 0x341) epc)) :=
    CsrInv_set (r := ⟨0x341, 0xFFFFFFFFFFFFFFFE, .storage, .value 0⟩) h (by decide) rfl
      (maskedWrite_outside (by decide) _ _)
  have hsepc : CsrInv hartid (c.set .sepc (maskedWrite c.sepc (savedPcMask csrTable 0x141) epc)) :=
    CsrInv_set (r := ⟨0x141, 0xFFFFFFFFFFFFFFFE, .storage, .value 0⟩) h (by decide) rfl
      (maskedWrite_outside (by decide) _ _)
  cases target with
  | machine =>
    exact CsrInv_set_mstatus (CsrInv_set_full 0x343 (CsrInv_set_full 0x342 hmepc (by decide)) (by decide))
      (statusTrapM_outside _ _)
  | user | supervisor =>
    exact CsrInv_set_mstatus (CsrInv_set_full 0x143 (CsrInv_set_full 0x142 hsepc (by decide)) (by decide))
      (statusTrapS_outside _ _)

/-- A handler's address is even (R41, R646). -/
theorem handlerAddress_even (tvec : Word) (ev : TrapEvent) : handlerAddress tvec ev &&& 1 = 0 := by
  have hbase : (tvecBase tvec).getLsbD 0 = false := by simp [tvecBase]
  rw [and_one_eq_zero_iff]
  unfold handlerAddress
  split
  · rw [BitVec.getLsbD_add (by decide), hbase, BitVec.getLsbD_ofNat]
    simp [Nat.testBit_zero, Nat.mul_mod]
  · exact hbase

/-! ### Reset (R68, R702) -/

/-- At reset a storage register that the default table names holds what its table gives its address. -/
theorem CsrFile_reset_get_named (tbl : List CsrRow) (hartid : Word) {a : BitVec 12} (ha : CsrReg.ofAddr a ≠ .other a) :
    (CsrFile.reset tbl hartid).get (.ofAddr a) = csrResetValue tbl hartid a := by
  unfold CsrReg.ofAddr at ha ⊢
  split at ha
  case h_25 => exact absurd rfl ha
  all_goals
    next h => exact congrArg (csrResetValue tbl hartid) (BitVec.eq_of_toNat_eq h.symm)

/-- Among the other registers at reset, an address finds the row that the table finds. -/
theorem othersGet_reset {tbl : List CsrRow} {hartid : Word} {a : BitVec 12} {row : CsrRow}
    (hrow : csrFind tbl a = some row) (hk : row.kind = .storage) (ha : CsrReg.ofAddr a = .other a) :
    othersGet (csrResetOthers tbl hartid) a = row.reset.eval hartid := by
  induction tbl with
  | nil => cases hrow
  | cons r rest ih =>
    by_cases hr : r.addr = a
    · obtain rfl : r = row := by simpa [csrFind, hr] using hrow
      simp [csrResetOthers, othersGet, hk, hr, ha]
    · have hrest := ih (by simpa [csrFind, hr] using hrow)
      by_cases hkeep : r.kind = .storage ∧ CsrReg.ofAddr r.addr = .other r.addr
      · simpa [csrResetOthers, othersGet, hkeep, hr] using hrest
      · simpa [csrResetOthers, hkeep] using hrest

theorem csrResetValue_of_storage {tbl : List CsrRow} {a : BitVec 12} {row : CsrRow} (hartid : Word)
    (hrow : csrFind tbl a = some row) (hk : row.kind = .storage) : csrResetValue tbl hartid a = row.reset.eval hartid := by
  obtain ⟨addr, mask, kind, reset⟩ := row
  cases hk
  simp only [csrResetValue, hrow]

/-- At reset each storage register of a table holds its row's value (R68). -/
theorem CsrFile_reset_get {tbl : List CsrRow} {a : BitVec 12} {row : CsrRow} (hartid : Word)
    (hrow : csrFind tbl a = some row) (hk : row.kind = .storage) :
    (CsrFile.reset tbl hartid).get (.ofAddr a) = row.reset.eval hartid := by
  by_cases ha : CsrReg.ofAddr a = .other a
  · rw [ha]
    exact othersGet_reset hrow hk ha
  · rw [CsrFile_reset_get_named tbl hartid ha, csrResetValue_of_storage hartid hrow hk]

theorem CsrInv_reset (hartid : Word) : CsrInv hartid (CsrFile.reset csrTable hartid) := by
  have hfind : ∀ r ∈ csrTable, csrFind csrTable r.addr = some r := by decide
  exact ⟨fun r hr hk => by rw [CsrFile_reset_get hartid (hfind r hr) hk], by simp [CsrFile.reset], rfl⟩

theorem Hart_Inv_reset {cfg : Config} (hcfg : cfg.wf = true) (htbl : cfg.csrTable = csrTable) (hartid : Word) :
    (Hart.reset cfg hartid).Inv := by
  rw [Hart_Inv_iff]
  simp only [Config.wf, Bool.and_eq_true, beq_iff_eq] at hcfg
  obtain ⟨⟨-, hpc⟩, -⟩ := hcfg
  refine ⟨by simp [Hart.reset], hpc, ?_⟩
  simpa [Hart.reset, htbl] using CsrInv_reset hartid

end Sys2Proof.Machine
end

section
/-! Even addresses (R41): an instruction that an accepted table decodes has an even offset, if it has one, so that its jumps
go from even addresses to even ones. -/

namespace Sys2Proof.Machine

/-- The offset of a jump or branch, if the instruction has one, is even: no segment produces its bit 0 (R183). -/
def EvenOffset : Instr → Prop
  | .jal _ imm => lowZeros 1 imm = true
  | .beq _ _ imm | .bne _ _ imm | .blt _ _ imm | .bge _ _ imm | .bltu _ _ imm | .bgeu _ _ imm => lowZeros 1 imm = true
  | .cJ imm => lowZeros 1 imm = true
  | .cBeqz _ imm | .cBnez _ imm => lowZeros 1 imm = true
  | _ => True

/-! ### Decoded instructions -/

section
variable {vs : List Insn} {i : Instr} {w1 w2 w3 w4 w5 : Nat}

theorem build0_evenOffset {j : Instr} (h : build0 j vs = some i) (hj : EvenOffset j) :
    EvenOffset i := by
  unfold build0 at h
  split at h <;> cases h
  exact hj

theorem build1_evenOffset {f : BitVec w1 → Instr} (h : build1 f vs = some i) (hf : ∀ a, EvenOffset (f a)) :
    EvenOffset i := by
  unfold build1 at h
  split at h <;> cases h
  exact hf _

theorem build2_evenOffset {f : BitVec w1 → BitVec w2 → Instr} (h : build2 f vs = some i)
    (hf : ∀ a b, EvenOffset (f a b)) : EvenOffset i := by
  unfold build2 at h
  split at h <;> cases h
  exact hf _ _

theorem build3_evenOffset {f : BitVec w1 → BitVec w2 → BitVec w3 → Instr} (h : build3 f vs = some i)
    (hf : ∀ a b c, EvenOffset (f a b c)) : EvenOffset i := by
  unfold build3 at h
  split at h <;> cases h
  exact hf _ _ _

theorem build4_evenOffset {f : BitVec w1 → BitVec w2 → BitVec w3 → BitVec w4 → Instr}
    (h : build4 f vs = some i) (hf : ∀ a b c d, EvenOffset (f a b c d)) : EvenOffset i := by
  unfold build4 at h
  split at h <;> cases h
  exact hf _ _ _ _

theorem build5_evenOffset {f : BitVec w1 → BitVec w2 → BitVec w3 → BitVec w4 → BitVec w5 → Instr}
    (h : build5 f vs = some i) (hf : ∀ a b c d e, EvenOffset (f a b c d e)) : EvenOffset i := by
  unfold build5 at h
  split at h <;> cases h
  exact hf _ _ _ _ _

end

/-- A value whose bit 0 the operand does not cover is even at any width. -/
theorem lowZeros_setWidth {w : Nat} {v cover : Insn} (hv : v &&& ~~~cover = 0) (hc : cover.getLsbD 0 = false) :
    lowZeros 1 (v.setWidth w) = true := by
  have h0 := congrArg (BitVec.getLsbD · 0) hv
  simp only [BitVec.getLsbD_and, BitVec.getLsbD_not, hc] at h0
  have hbit : (v.setWidth w).getLsbD 0 = false := by
    rw [BitVec.getLsbD_setWidth]
    simpa using fun _ => h0
  simpa [lowZeros] using (and_one_eq_zero_iff _).mpr hbit

/-- Values that the operands of an identifier's row can have give an instruction with an even offset. -/
theorem ofOperands_evenOffset {op : Op} {vs : List Insn} {i : Instr}
    (hvs : List.Forall₂ (fun o v => v &&& ~~~o.cover = 0) (row op).operands vs) (h : Instr.ofOperands op vs = some i) :
    EvenOffset i := by
  cases op with
  | cJ =>
    obtain _ | ⟨himm, _ | _⟩ := hvs
    cases h
    exact lowZeros_setWidth himm (by decide)
  | jal =>
    obtain _ | ⟨_, _ | ⟨himm, _ | _⟩⟩ := hvs
    cases h
    exact lowZeros_setWidth himm (by decide)
  | cBeqz | cBnez =>
    obtain _ | ⟨_, _ | ⟨himm, _ | _⟩⟩ := hvs
    cases h
    exact lowZeros_setWidth himm (by decide)
  | beq | bne | blt | bge | bltu | bgeu =>
    obtain _ | ⟨_, _ | ⟨_, _ | ⟨himm, _ | _⟩⟩⟩ := hvs
    cases h
    exact lowZeros_setWidth himm (by decide)
  | ecall | ebreak | sret | mret | wfi | cEbreak | vectorOp | vectorLoadW8 | vectorLoadW16 | vectorLoadW32
  | vectorLoadW64 | vectorStoreW8 | vectorStoreW16 | vectorStoreW32 | vectorStoreW64 =>
    exact build0_evenOffset h trivial
  | cAddi16sp | cJr | cJalr | cboInval | cboClean | cboFlush | cboZero =>
    exact build1_evenOffset h fun _ => trivial
  | lui | auipc | sfenceVma | cAddi4spn | cAddi | cAddiw | cLi | cLui | cSrli | cSrai | cAndi | cSub | cXor | cOr
  | cAnd | cSubw | cAddw | cSlli | cFldsp | cLwsp | cLdsp | cMv | cAdd | cFsdsp | cSwsp | cSdsp | fmvXW | fmvWX
  | fmvXD | fmvDX | fclassS | fclassD | hfenceVvma | hfenceGvma | hlvB | hlvBu | hlvH | hlvHu | hlvxHu | hlvW | hlvWu
  | hlvxWu | hlvD | hsvB | hsvH | hsvW | hsvD =>
    exact build2_evenOffset h fun _ _ => trivial
  | addi | slti | sltiu | xori | ori | andi | slli | srli | srai | add | sub | sll | slt | sltu | xor | srl | sra
  | or | and | addiw | slliw | srliw | sraiw | addw | subw | sllw | srlw | sraw | jalr | lb | lh | lw | ld | lbu
  | lhu | lwu | sb | sh | sw | sd | mul | mulh | mulhsu | mulhu | div | divu | rem | remu | mulw | divw | divuw
  | remw | remuw | csrrw | csrrs | csrrc | csrrwi | csrrsi | csrrci | fenceI | cFld | cLw | cLd | cFsd | cSw | cSd
  | flw | fld | fsw | fsd | fsqrtS | fsgnjS | fsgnjnS | fsgnjxS | fminS | fmaxS | feqS | fltS | fleS | fcvtWS
  | fcvtWuS | fcvtLS | fcvtLuS | fcvtSW | fcvtSWu | fcvtSL | fcvtSLu | fsqrtD | fsgnjD | fsgnjnD | fsgnjxD | fminD
  | fmaxD | feqD | fltD | fleD | fcvtWD | fcvtWuD | fcvtLD | fcvtLuD | fcvtDW | fcvtDWu | fcvtDL | fcvtDLu | fcvtSD
  | fcvtDS =>
    exact build3_evenOffset h fun _ _ _ => trivial
  | lrW | lrD | faddS | fsubS | fmulS | fdivS | faddD | fsubD | fmulD | fdivD =>
    exact build4_evenOffset h fun _ _ _ _ => trivial
  | scW | amoswapW | amoaddW | amoxorW | amoandW | amoorW | amominW | amomaxW | amominuW | amomaxuW | scD | amoswapD
  | amoaddD | amoxorD | amoandD | amoorD | amominD | amomaxD | amominuD | amomaxuD | fence | fmaddS | fmsubS
  | fnmsubS | fnmaddS | fmaddD | fmsubD | fnmsubD | fnmaddD =>
    exact build5_evenOffset h fun _ _ _ _ _ => trivial

/-- An accepted table decodes only instructions with even offsets. -/
theorem decodeIn_evenOffset {tbl : List Definition} (hacc : Registry.accepts tbl = true) {mode : Priv} {len : Nat} {w : Insn}
    {i : Instr} (h : decodeIn tbl mode len w = .ok i) : EvenOffset i := by
  obtain ⟨d, hd, -, hi⟩ := decodeIn_eq_ok h
  obtain ⟨-, hhandled⟩ := mem_accepts hacc hd
  exact ofOperands_evenOffset (handlerValues_covered hhandled w) hi

/-! ### Their effects -/

/-- A next state of an instruction with an even offset is one that a well-formed instruction has too: what else the encodings
exclude (R196) decides neither which effect there is nor where a jump goes. -/
theorem exec_effect_of_evenOffset {i : Instr} {s t : State} (hi : EvenOffset i) (h : exec i s = .next t) :
    ∃ j : Instr, Effect j s t ∧ j.wellFormed = true := by
  cases i with
  | jal | beq | bne | blt | bge | bltu | bgeu | cJ | cBeqz | cBnez => exact ⟨_, exec_effect h, hi⟩
  | lui | auipc => exact ⟨.ecall, setX_effect .four h, rfl⟩
  | cAddi4spn | cAddi16sp | cAddiw | cLui | cMv | cAdd => exact ⟨.ecall, setX_effect .two h, rfl⟩
  | cJr | cJalr => exact ⟨.ecall, link_effect (fun _ _ => clearBit0_even _) h, rfl⟩
  | cLw | cLd | cLwsp | cLdsp => exact ⟨.ecall, load_effect .two h, rfl⟩
  | cSw | cSd | cSwsp | cSdsp => exact ⟨.ecall, store_effect .two h, rfl⟩
  | cFld | cFldsp => exact ⟨.ecall, fpGate_effect (loadF_effect .two) h, rfl⟩
  | cFsd | cFsdsp => exact ⟨.ecall, fpGate_effect (store_effect .two) h, rfl⟩
  | _ => exact ⟨_, exec_effect h, rfl⟩

end Sys2Proof.Machine
end

section
/-! The invariant of the state (R31, R41, R52 to R62): every move of the environment, every effect of an instruction and
every trap keeps it, and so every step. -/

namespace Sys2Proof.Machine

variable {s t : State}

/-! ### The parts of the invariant -/

/-- Two harts that agree on what the invariant reads. -/
theorem Hart_Inv_congr {h k : Hart} (hi : h.Inv) (hx : k.x[0] = h.x[0]) (hpc : k.pc &&& 1 = 0) (hid : k.hartid = h.hartid)
    (hcsr : k.csr = h.csr) : k.Inv := by
  rw [Hart_Inv_iff] at hi ⊢
  obtain ⟨hx0, -, hcsr'⟩ := hi
  exact ⟨hx.trans hx0, hpc, by rw [hid, hcsr]; exact hcsr'⟩

theorem Hart_Inv_csr {h : Hart} (hi : h.Inv) : CsrInv h.hartid h.csr := by
  obtain ⟨-, -, hcsr⟩ := (Hart_Inv_iff h).mp hi
  exact hcsr

/-- A state with the same parameters, whose memory and harts come back to the invariant. -/
theorem State_Inv_of_parts (hs : s.Inv) (hcfg : t.cfg = s.cfg) (hmem : Memory.wf t.mem = true) (hhart : t.hart.Inv)
    (hothers : ∀ h ∈ t.others, h.Inv) : t.Inv :=
  ⟨hcfg ▸ hs.cfg, hcfg ▸ hs.isaTable, hcfg ▸ hs.csrTable, hmem, hhart, hothers⟩

theorem State_Inv_of_surroundings (hs : s.Inv) (hst : SameSurroundings s t) (hmem : Memory.wf t.mem = true)
    (hhart : t.hart.Inv) : t.Inv := by
  obtain ⟨hothers, -, -, -, -, hcfg⟩ := hst
  exact State_Inv_of_parts hs hcfg hmem hhart (hothers ▸ hs.others)

theorem MmuStep_keeps_inv (hs : s.Inv) (h : MmuStep s t) : t.Inv := by
  obtain ⟨hx, -, hpc, -, -, -, hcsr, hid, -⟩ := MmuStep_fields h
  exact State_Inv_of_surroundings hs (MmuStep_surroundings h) (h.2 hs.mem)
    (Hart_Inv_congr hs.hart (by rw [hx]) (hpc ▸ hs.hart.pc) hid hcsr)

/-- Entering a trap keeps the invariant: the handler's address is even, and so is the saved pc, whatever is saved. -/
theorem trapState_keeps_inv (hs : s.Inv) (ev : TrapEvent) (tval epc : Word) : (trapState ev tval epc s).Inv := by
  refine State_Inv_of_surroundings hs ⟨rfl, rfl, rfl, rfl, rfl, rfl⟩ hs.mem ((Hart_Inv_iff _).mpr ⟨hs.hart.x0, ?_, ?_⟩)
  · exact handlerAddress_even _ _
  · rw [trapState_csr, hs.csrTable]
    exact CsrInv_trapCsr (Hart_Inv_csr hs.hart) _ _ _ _ _

theorem takeTrap_keeps_inv {ev : TrapEvent} {tval epc : Word} (hs : s.Inv) (h : takeTrap ev tval epc s = .next t) :
    t.Inv := by
  obtain ⟨-, rfl⟩ := takeTrap_eq_next h
  exact trapState_keeps_inv hs _ _ _

/-! ### Instructions -/

theorem retire_even (hs : s.Inv) (l : InsnLength) : (s.hart.pc + BitVec.ofNat 64 l.bytes) &&& 1 = 0 := by
  rw [advance_even, hs.hart.pc]

/-- Every effect of a well-formed instruction keeps the invariant of the hart, and memory canonical. -/
theorem Effect_keeps_hart {j : Instr} (hs : s.Inv) (hj : j.wellFormed = true) (h : Effect j s t) :
    Memory.wf t.mem = true ∧ t.hart.Inv := by
  have hpc4 : (s.hart.pc + 4) &&& 1 = 0 := retire_even hs .four
  cases h with
  | @traps u e tval hu =>
    have ht := trapState_keeps_inv (MmuStep_keeps_inv hs hu) (.exception e) tval u.hart.pc
    exact ⟨ht.mem, ht.hart⟩
  | writesX rd v l hu =>
    have hu := MmuStep_keeps_inv hs hu
    exact ⟨by simpa using hu.mem, Hart_Inv_congr hu.hart (by simp) (by simpa using retire_even hu l) (by simp) (by simp)⟩
  | writesF rd v l hu =>
    have hu := MmuStep_keeps_inv hs hu
    exact ⟨hu.mem, Hart_Inv_congr hu.hart rfl (retire_even hu l) rfl rfl⟩
  | jumps rd v target heven =>
    exact ⟨by simpa using hs.mem, Hart_Inv_congr hs.hart (by simp) (heven hj hs.hart.pc) (by simp) (by simp)⟩
  | writesCsr a new d rd old hread hwrite =>
    have hcsr := csrWrite_keeps_CsrInv (s := s.withDraws d) hs.csrTable a new (Hart_Inv_csr hs.hart)
    obtain ⟨f, d', hf⟩ := csrWrite_state a new (s.withDraws d)
    rw [hf] at hcsr ⊢
    refine ⟨by simpa using hs.mem, (Hart_Inv_iff _).mpr ⟨by simpa using hs.hart.x0, by simpa using hpc4,
      by simpa using hcsr⟩⟩
  | setsSemihosting b rd v =>
    exact ⟨by simpa using hs.mem, Hart_Inv_congr hs.hart (by simp) (by simpa using hpc4) (by simp) (by simp)⟩
  | sleeps hi => exact ⟨hs.mem, Hart_Inv_congr hs.hart rfl hpc4 rfl rfl⟩
  | returnsS hi hpriv =>
    exact ⟨hs.mem, (Hart_Inv_iff _).mpr ⟨hs.hart.x0, hs.hart.sepc,
      CsrInv_set_mstatus (Hart_Inv_csr hs.hart) (statusSret_outside _)⟩⟩
  | returnsM hi hpriv hmpp =>
    exact ⟨hs.mem, (Hart_Inv_iff _).mpr ⟨hs.hart.x0, hs.hart.mepc,
      CsrInv_set_mstatus (Hart_Inv_csr hs.hart) (statusMret_outside _)⟩⟩

theorem exec_keeps_inv {i : Instr} (hs : s.Inv) (hi : EvenOffset i) (h : exec i s = .next t) : t.Inv := by
  obtain ⟨j, hj, hwf⟩ := exec_effect_of_evenOffset hi h
  obtain ⟨hmem, hhart⟩ := Effect_keeps_hart hs hwf hj
  exact State_Inv_of_surroundings hs (Effect_surroundings hj) hmem hhart

/-! ### The hart's cycle -/

theorem withLen_keeps_inv (hs : s.Inv) (l : InsnLength) : (s.withLen l).Inv :=
  State_Inv_of_parts hs rfl hs.mem hs.hart hs.others

theorem withSleeping_keeps_inv (hs : s.Inv) (b : Bool) : (s.withSleeping b).Inv :=
  State_Inv_of_surroundings hs ⟨rfl, rfl, rfl, rfl, rfl, rfl⟩ hs.mem (Hart_Inv_congr hs.hart rfl hs.hart.pc rfl rfl)

theorem runWord_keeps_inv {w : Insn} {n : Nat} (hs : s.Inv) (h : runWord w n s = .next t) : t.Inv := by
  have hillegal : illegal s = .next t → t.Inv := takeTrap_keeps_inv (MmuStep_keeps_inv hs (MmuStep_withDraws s _))
  cases hd : decodeIn s.cfg.isaTable s.hart.priv n w with
  | ok i =>
    rw [runWord_ok hd] at h
    exact exec_keeps_inv (withLen_keeps_inv hs _) (decodeIn_evenOffset hs.isaTable hd) h
  | error e =>
    simp only [runWord, hd] at h
    cases e with
    | ambiguous => cases h
    | noDefinition | truncated => exact hillegal h

theorem runInstruction_keeps_inv (hs : s.Inv) (h : runInstruction s = .next t) : t.Inv := by
  have hf := fetch_post s
  rcases run_eq_next h with ⟨w, u, hu, hw⟩ | ⟨e, v, u, hu, hr⟩ <;> rw [hu] at hf
  · exact runWord_keeps_inv (MmuStep_keeps_inv hs hf) hw
  · exact takeTrap_keeps_inv (MmuStep_keeps_inv hs hf) hr

theorem runHart_keeps_inv (hs : s.Inv) (h : runHart s = .next t) : t.Inv := by
  obtain ⟨b, hb⟩ := interruptCheck_state s
  have hs' := withSleeping_keeps_inv hs b
  rw [← hb] at hs'
  unfold runHart at h
  split at h <;> rename_i heq <;> rw [heq] at hs'
  · exact takeTrap_keeps_inv hs' h
  · split at h
    · cases h; exact hs'
    · exact runInstruction_keeps_inv hs' h

/-! ### The boundary between two steps -/

/-- The harts that an exchange gives are the old one and those of the list. -/
theorem exchangeHart_forall {P : Hart → Prop} {hartid : Word} {h found : Hart} {rest : List Hart} (hh : P h) :
    ∀ {l : List Hart}, (∀ k ∈ l, P k) → exchangeHart hartid h l = some (found, rest) → P found ∧ ∀ k ∈ rest, P k
  | [], _, he => by cases he
  | k :: l, hl, he => by
    rw [List.forall_mem_cons] at hl
    unfold exchangeHart at he
    split at he
    · cases he
      exact ⟨hl.1, List.forall_mem_cons.mpr ⟨hh, hl.2⟩⟩
    · split at he
      · next hrec =>
        cases he
        obtain ⟨hfound, hrest⟩ := exchangeHart_forall hh hl.2 hrec
        exact ⟨hfound, List.forall_mem_cons.mpr ⟨hl.1, hrest⟩⟩
      · cases he

theorem applyEvent_keeps_inv (hs : s.Inv) (ev : EnvEvent) : (applyEvent s ev).Inv := by
  cases ev with
  | lines l => exact State_Inv_of_parts hs rfl hs.mem (Hart_Inv_congr hs.hart rfl hs.hart.pc rfl rfl) hs.others
  | mtime v => exact State_Inv_of_parts hs rfl hs.mem hs.hart hs.others
  | store pa b => exact State_Inv_of_parts hs rfl (Memory_wf_write _ _ hs.mem) hs.hart hs.others
  | select hartid =>
    show (s.select hartid).Inv
    unfold State.select
    split
    · next heq =>
      obtain ⟨hhart, hothers⟩ := exchangeHart_forall hs.hart hs.others heq
      exact State_Inv_of_parts hs rfl hs.mem hhart hothers
    · exact hs
  | reset =>
    have hreset := Hart_Inv_reset hs.cfg hs.csrTable s.hart.hartid
    exact State_Inv_of_parts hs rfl hs.mem (Hart_Inv_congr hreset rfl hreset.pc rfl rfl) hs.others

theorem environment_keeps_inv (hs : s.Inv) : (environment s).Inv := by
  unfold environment
  split
  · exact hs
  · next evs later _ =>
    exact List.foldlRecOn (motive := State.Inv) evs applyEvent
      (State_Inv_of_parts hs rfl hs.mem hs.hart hs.others) fun _ hu ev _ => applyEvent_keeps_inv hu ev

theorem dropTlb_keeps_inv (hs : s.Inv) : (dropTlb s).Inv := by
  unfold dropTlb
  split
  · exact MmuStep_keeps_inv hs ⟨rfl, id⟩
  · exact hs

/-- Settles O57: the boundary before a step keeps the invariant, and so does the hart's cycle. -/
theorem stepKeepsTheInvariant : Obligations.StepKeepsTheInvariant := by
  intro s t hs h
  unfold step at h
  split at h
  · cases h
  · exact runHart_keeps_inv (dropTlb_keeps_inv (environment_keeps_inv hs)) h

end Sys2Proof.Machine
end

section
/-! The CSR file, register by register: what each kind of row reads and where its writes go (R60 to R65), the checks in front
of them (R60, R61), and what of it U-mode can reach (R662). -/

namespace Sys2Proof.Machine

variable {s t : State}

/-! ### Storage registers (R60, R62) -/

theorem length_of_csrFind {tbl : List CsrRow} {a : BitVec 12} {row : CsrRow} (h : csrFind tbl a = some row) :
    ∃ n, tbl.length = n + 1 := by
  cases tbl with
  | nil => cases h
  | cons r rest => exact ⟨rest.length, rfl⟩

theorem addr_of_csrFind {tbl : List CsrRow} {a : BitVec 12} {row : CsrRow} (h : csrFind tbl a = some row) :
    row.addr = a := by
  simpa using List.find?_some h

theorem csrValue_of_storage {a : BitVec 12} {row : CsrRow} (hrow : csrFind s.cfg.csrTable a = some row)
    (hk : row.kind = .storage) : csrValue a s = some (s.hart.csr.get (.ofAddr a), s) := by
  obtain ⟨n, hn⟩ := length_of_csrFind hrow
  simp only [csrValue, hn, csrValueFrom, hrow, hk]

theorem csrTerminal_of_storage {tbl : List CsrRow} {a : BitVec 12} {row : CsrRow} (hrow : csrFind tbl a = some row)
    (hk : row.kind = .storage) : csrTerminal tbl a = some (row, row.mask) := by
  obtain ⟨n, hn⟩ := length_of_csrFind hrow
  simp only [csrTerminal, hn, csrTerminalFrom, hrow, hk]

theorem csrWrite_of_storage {a : BitVec 12} {row : CsrRow} (v : Word) (hrow : csrFind s.cfg.csrTable a = some row)
    (hk : row.kind = .storage) :
    csrWrite a v s = s.withCsr (s.hart.csr.set (.ofAddr a) (maskedWrite (s.hart.csr.get (.ofAddr a)) row.mask v)) := by
  simp only [csrWrite, csrTerminal_of_storage hrow hk, csrRowWrite, hk, addr_of_csrFind hrow]

/-- Settles O23: every storage row reads and writes alike, and each register of R52 is such a row of the default table. -/
theorem storageCsrMaskedWrite : Obligations.StorageCsrMaskedWrite := by
  refine ⟨fun s v htbl => ?_, fun row a s v hrow hk => ⟨csrValue_of_storage hrow hk, csrWrite_of_storage v hrow hk⟩⟩
  have register : ∀ (a : BitVec 12) (mask : Word) (r : CsrReset), csrFind csrTable a = some ⟨a, mask, .storage, r⟩ →
      csrValue a s = some (s.hart.csr.get (.ofAddr a), s) ∧
      csrWrite a v s = s.withCsr (s.hart.csr.set (.ofAddr a) (maskedWrite (s.hart.csr.get (.ofAddr a)) mask v)) := by
    intro a mask r hrow
    rw [← htbl] at hrow
    have hwrite := csrWrite_of_storage v hrow rfl
    exact ⟨csrValue_of_storage hrow rfl, hwrite⟩
  refine ⟨?_, ?_, ?_, ?_, ?_, ?_, ?_, ?_, ?_, ?_, ?_, ?_, ?_, ?_, ?_, ?_, ?_, ?_, ?_, ?_, ?_, ?_, ?_, ?_⟩ <;>
    exact register _ _ _ (by rfl)

/-! ### Views and computed registers (R54, R59, R63 to R65) -/

/-- Inside its mask, a masked write leaves the value written. -/
theorem maskedWrite_inside (old m v : Word) : maskedWrite old m v &&& m = v &&& m := by
  refine BitVec.eq_of_getLsbD_eq fun i hi => ?_
  simp only [maskedWrite, BitVec.getLsbD_and, BitVec.getLsbD_or, BitVec.getLsbD_not, hi]
  cases m.getLsbD i <;> simp

section
variable (htbl : s.cfg.csrTable = csrTable) (v : Word)
include htbl

/-- A write of `mip`, or of `sip` through it, stores its latch bits (R54, R65). -/
theorem csrWrite_latch {a : BitVec 12}
    (ha : csrTerminal csrTable a = some (⟨0x344, 0x222, .computed .mip, .value 0⟩, 0x222)) :
    csrWrite a v s = s.withCsr { s.hart.csr with mipLatch := v &&& 0x222 } := by
  simp only [csrWrite, htbl, ha, csrRowWrite, csrSetter, csrGetter, maskedWrite_inside]

/-- A write through views goes to the storage register at their end, under the product of the masks (R64). -/
theorem csrWrite_view {a : BitVec 12} {m : Word} {r : CsrRow} (ha : csrTerminal csrTable a = some (r, m))
    (hr : r.kind = .storage) :
    csrWrite a v s = s.withCsr (s.hart.csr.set (.ofAddr r.addr) (maskedWrite (s.hart.csr.get (.ofAddr r.addr)) m v)) := by
  simp only [csrWrite, htbl, ha, csrRowWrite, hr]

theorem csrWrite_fflags : csrWrite 0x001 v s =
    s.withCsr { s.hart.csr with fcsr := (s.hart.csr.fcsr &&& ~~~(0x1F : Word)) ||| (v &&& 0x1F) } :=
  csrWrite_view htbl v (r := ⟨0x003, 0xFF, .storage, .value 0⟩) (by decide) rfl

theorem csrWrite_frm : csrWrite 0x002 v s =
    s.withCsr { s.hart.csr with fcsr := (s.hart.csr.fcsr &&& ~~~(0xE0 : Word)) ||| ((v &&& 7) <<< 5) } := by
  have hterm : csrTerminal csrTable 0x002 = some (⟨0x002, 7, .computed .frm, .value 0⟩, 7) := by decide
  have hfield (x : Word) : setField s.hart.csr.fcsr 5 3 x =
      (s.hart.csr.fcsr &&& ~~~(0xE0 : Word)) ||| ((x &&& 7) <<< 5) := rfl
  simp only [csrWrite, htbl, hterm, csrRowWrite, csrSetter, csrGetter, hfield, maskedWrite_inside]

theorem csrWrite_fcsr : csrWrite 0x003 v s =
    s.withCsr { s.hart.csr with fcsr := (s.hart.csr.fcsr &&& ~~~(0xFF : Word)) ||| (v &&& 0xFF) } :=
  csrWrite_view htbl v (r := ⟨0x003, 0xFF, .storage, .value 0⟩) (by decide) rfl

end

/-- A line stands in `mip` at its own position (R54). -/
theorem bit_ofFlag_shiftLeft (b : Bool) {k : Nat} (hk : k < 64) (i : Nat) : bit (ofFlag b <<< k) i = (i == k && b) := by
  unfold bit ofFlag
  cases b
  · simp
  · rw [Bool.eq_iff_iff]
    simp
    omega

/-- The getter of `mip`, bit by bit (R54). -/
theorem bit_mipValue (h : Hart) (i : Nat) : bit (mipValue h) i =
    (bit h.csr.mipLatch i || (i == 3 && h.lines.msip) || (i == 7 && h.lines.mtip) || (i == 9 && h.lines.seip) ||
      (i == 11 && h.lines.meip)) := by
  have hor (v w : Word) : bit (v ||| w) i = (bit v i || bit w i) := BitVec.getLsbD_or
  simp only [mipValue, IrqLines.bits, hor, bit_ofFlag_shiftLeft _ (by decide : 3 < 64),
    bit_ofFlag_shiftLeft _ (by decide : 7 < 64), bit_ofFlag_shiftLeft _ (by decide : 9 < 64),
    bit_ofFlag_shiftLeft _ (by decide : 11 < 64), Bool.or_assoc]

/-- Settles O24: the reads are those of the chain of views, and the writes go to its terminal row. -/
theorem viewAndComputedCsrs : Obligations.ViewAndComputedCsrs := by
  have read {s : State} {a : BitVec 12} {r : Option (Word × State)} (htbl : s.cfg.csrTable = csrTable)
      (h : csrValueFrom csrTable csrTable.length a s = r) : csrValue a s = r := by rw [csrValue, htbl, h]
  constructor
  · intro s v htbl
    exact ⟨read htbl rfl, read htbl rfl, read htbl rfl, read htbl rfl, csrWrite_fflags htbl v,
      csrWrite_view htbl v (r := ⟨0x300, 0x7E79AA, .storage, .value 0xA00000000⟩) (by decide) rfl,
      csrWrite_view htbl v (r := ⟨0x304, 0xAAA, .storage, .value 0⟩) (by decide) rfl, csrWrite_latch htbl v (by decide)⟩
  · intro s v htbl
    exact ⟨⟨mipValue s.hart, read htbl rfl, bit_mipValue s.hart⟩, csrWrite_latch htbl v (by decide), read htbl rfl,
      csrWrite_frm htbl v, read htbl rfl, ⟨s.draw, read htbl rfl⟩, ⟨s.draw, read htbl rfl⟩⟩

/-! ### The checks (R60, R61) -/

theorem csrFind_isSome_iff (tbl : List CsrRow) (a : BitVec 12) :
    (csrFind tbl a).isSome = true ↔ a ∈ tbl.map CsrRow.addr := by
  simp [csrFind, List.find?_isSome]

theorem csrReadable_eq_false {tbl : List CsrRow} {a : BitVec 12} {p : Priv}
    (h : csrFind tbl a = none ∨ p.code < (a >>> 8).toNat % 4) : csrReadable tbl a p = false := by
  rw [csrReadable, Bool.and_eq_false_iff]
  rcases h with h | h
  · exact .inl (by rw [h]; rfl)
  · exact .inr (decide_eq_false (Nat.not_le.mpr h))

theorem csrWritable_eq_false {tbl : List CsrRow} {a : BitVec 12}
    (h : (a >>> 10).toNat = 3 ∨ ∃ t m, csrTerminal tbl a = some (t, m) ∧
      t.kind ∈ [CsrKind.computed .cycle, .computed .time, .computed .instret]) : csrWritable tbl a = false := by
  rw [csrWritable, Bool.and_eq_false_iff]
  rcases h with h | ⟨t, m, ht, hk⟩
  · exact .inl (by rw [csrReadOnly, h]; rfl)
  · simp only [List.mem_cons, List.not_mem_nil, or_false] at hk
    refine .inr ?_
    rcases hk with hk | hk | hk <;> simp [ht, csrRowWritable, hk, csrHasSetter]

/-- Settles O21: each of the six instructions makes its checks before anything else, and a failed one is illegal. -/
theorem csrChecksRefuse : Obligations.CsrChecksRefuse := by
  refine ⟨fun a => csrFind_isSome_iff csrTable a, fun s a rd rs1 uimm hacyclic => ⟨fun h => ?_, fun h => ?_⟩⟩
  · have hr := csrReadable_eq_false h
    have refuses {reads writes : Bool} {new : Word → Word} : csrInstr reads writes a rd new s = illegal s :=
      csrInstr_illegal hacyclic (.inl hr)
    exact ⟨refuses, refuses, refuses, refuses, refuses, refuses⟩
  · have hw := csrWritable_eq_false h
    have refuses {reads writes : Bool} {new : Word → Word} (hwrites : writes = true) :
        csrInstr reads writes a rd new s = illegal s := csrInstr_illegal hacyclic (.inr ⟨hwrites, hw⟩)
    exact ⟨refuses rfl, refuses rfl, fun hrs1 => ⟨refuses (bne_iff_ne.mpr hrs1), refuses (bne_iff_ne.mpr hrs1)⟩,
      fun huimm => ⟨refuses (bne_iff_ne.mpr huimm), refuses (bne_iff_ne.mpr huimm)⟩⟩

/-! ### U-mode (R662) -/

/-- `fflags`, `frm` and `fcsr` are the CSRs that U-mode can write. -/
theorem userWritable_addr {a : BitVec 12} (hr : csrReadable csrTable a .user = true) (hw : csrWritable csrTable a = true) :
    a = 0x001 ∨ a = 0x002 ∨ a = 0x003 := by
  have hrows : ∀ r ∈ csrTable, csrPrivilege r.addr ≤ 0 → csrReadOnly r.addr = false →
      r.addr = 0x001 ∨ r.addr = 0x002 ∨ r.addr = 0x003 := by decide
  simp only [csrReadable, Bool.and_eq_true, decide_eq_true_eq] at hr
  simp only [csrWritable, Bool.and_eq_true, Bool.not_eq_true'] at hw
  obtain ⟨hdefined, hpriv⟩ := hr
  obtain ⟨hreadOnly, -⟩ := hw
  obtain ⟨row, hrow⟩ := Option.isSome_iff_exists.mp hdefined
  obtain rfl := addr_of_csrFind hrow
  exact hrows row (List.mem_of_find?_eq_some hrow) hpriv hreadOnly

theorem csrWrite_user {a : BitVec 12} (htbl : s.cfg.csrTable = csrTable) (hr : csrReadable csrTable a .user = true)
    (hw : csrWritable csrTable a = true) (v : Word) :
    ∃ f, csrWrite a v s = s.withCsr { s.hart.csr with fcsr := f } := by
  rcases userWritable_addr hr hw with rfl | rfl | rfl
  · exact ⟨_, csrWrite_fflags htbl v⟩
  · exact ⟨_, csrWrite_frm htbl v⟩
  · exact ⟨_, csrWrite_fcsr htbl v⟩

/-- From U-mode a trap leads to S or to M (R641). -/
theorem trapTarget_ne_user (ev : TrapEvent) (h : Hart) : trapTarget ev h ≠ .user := by
  unfold trapTarget
  split <;> split <;> decide

/-- The effects that stay in U-mode: none changes the WFI flag, but for `wfi`, and none a CSR but `fcsr`. -/
theorem Effect_stays_user {i : Instr} (htbl : s.cfg.csrTable = csrTable) (hs : s.hart.priv = .user) (hi : i ≠ .wfi)
    (h : Effect i s t) (ht : t.hart.priv = .user) :
    t.hart.csr = { s.hart.csr with fcsr := t.hart.csr.fcsr } ∧ t.hart.sleeping = s.hart.sleeping := by
  cases h with
  | traps e tval hu => exact absurd ((trapState_priv _ _ _ _).symm.trans ht) (trapTarget_ne_user _ _)
  | writesX rd v l hu =>
    obtain ⟨-, -, -, -, hsleeping, -, hcsr, -⟩ := MmuStep_fields hu
    simp [hcsr, hsleeping]
  | writesF rd v l hu =>
    obtain ⟨-, -, -, -, hsleeping, -, hcsr, -⟩ := MmuStep_fields hu
    simp [hcsr, hsleeping]
  | jumps rd v target heven => simp
  | writesCsr a new d rd old hread hwrite =>
    rw [htbl, hs] at hread
    rw [htbl] at hwrite
    obtain ⟨f, hf⟩ := csrWrite_user (s := s.withDraws d) htbl hread hwrite new
    simp [hf]
  | setsSemihosting b rd v => simp
  | sleeps hwfi => exact absurd hwfi hi
  | returnsS _ hpriv => exact absurd hs hpriv
  | returnsM _ hpriv => rw [hs] at hpriv; cases hpriv

/-- Settles O59: `wfi` sets the WFI flag and no CSR, and what another instruction does in U-mode is one of its effects. -/
theorem userModeChangesOnlyFcsr : Obligations.UserModeChangesOnlyFcsr := by
  intro i s t htbl hs h ht
  by_cases hi : i = .wfi
  · subst hi
    cases h
    simp
  · obtain ⟨hcsr, hsleeping⟩ := Effect_stays_user htbl hs hi (exec_effect h) ht
    exact ⟨hcsr, by simpa [hi] using hsleeping⟩

end Sys2Proof.Machine
end

section
/-! Which interrupt is selected (R635 to R637), and the TLB as a map: insertion, the flush of `sfence.vma` and the drops of a
step boundary (R75, R121, R123, R124). -/

namespace Sys2Proof.Machine

/-! ### Interrupt selection (R635 to R637) -/

theorem mem_byCode (c : Interrupt) : c ∈ Interrupt.byCode := by cases c <;> decide

/-- With nothing pending outside `mie`'s mask, each pending bit is that of an interrupt (R52, R631). -/
theorem code_of_pending {p : Word} (hp : p &&& ~~~0xAAA = 0) {i : Nat} (hi : bit p i = true) :
    ∃ c : Interrupt, c.code = i := by
  have hcodes : ∀ i < 64, bit 0xAAA i = true → ∃ c ∈ Interrupt.byCode, c.code = i := by decide
  have hlt : i < 64 := BitVec.lt_of_getLsbD hi
  have hmask : bit 0xAAA i = true := by
    have h0 := congrArg (BitVec.getLsbD · i) hp
    unfold bit at hi ⊢
    simp only [BitVec.getLsbD_and, BitVec.getLsbD_not, hlt, hi] at h0
    simpa using h0
  obtain ⟨c, -, hc⟩ := hcodes i hlt hmask
  exact ⟨c, hc⟩

/-- The interrupt selected is pending, and none with a lower code is. -/
theorem lowestPending_eq_some {p : Word} {c : Interrupt} (h : lowestPending p = some c) :
    bit p c.code = true ∧ ∀ d : Interrupt, d.code < c.code → bit p d.code = false := by
  have hsorted : Interrupt.byCode.Pairwise fun a b => a.code < b.code := by decide
  obtain ⟨hc, before, after, hsplit, hbefore⟩ := List.find?_eq_some_iff_append.mp h
  refine ⟨hc, fun d hd => ?_⟩
  have hmem := mem_byCode d
  rw [hsplit] at hsorted hmem
  rcases List.mem_append.mp hmem with hd' | hd'
  · simpa using hbefore d hd'
  · obtain ⟨-, htail, -⟩ := List.pairwise_append.mp hsorted
    rcases List.mem_cons.mp hd' with rfl | hd'
    · omega
    · obtain ⟨hafter, -⟩ := List.pairwise_cons.mp htail
      exact absurd hd (Nat.lt_asymm (hafter d hd'))

theorem lowestPending_eq_none_iff {p : Word} (hp : p &&& ~~~0xAAA = 0) : lowestPending p = none ↔ p = 0 := by
  constructor
  · intro h
    refine BitVec.eq_of_getLsbD_eq fun i _ => ?_
    cases hi : p.getLsbD i with
    | false => simp
    | true =>
      obtain ⟨c, rfl⟩ := code_of_pending hp hi
      exact absurd hi (List.find?_eq_none.mp h c (mem_byCode c))
  · rintro rfl
    decide

/-- Settles O12: the six interrupts stand in the order of their codes, and `mie` lets no other bit through. -/
theorem interruptSelection : Obligations.InterruptSelection := by
  refine ⟨fun h hinv => ?_, fun cfg h => ?_⟩
  · have hp : pendingBits h &&& ~~~0xAAA = 0 := by
      rw [pendingBits, BitVec.and_assoc, hinv.mie]
      exact BitVec.and_zero
    refine ⟨lowestPending_eq_none_iff hp, fun c hc => ?_⟩
    obtain ⟨hset, hlower⟩ := lowestPending_eq_some hc
    refine ⟨hset, fun i hi => ?_⟩
    by_contra hbit
    obtain ⟨d, rfl⟩ := code_of_pending hp (Bool.not_eq_false _ ▸ hbit)
    exact hbit (hlower d hi)
  · unfold globalEnable userEnable
    refine ⟨fun hm => by rw [hm]; rfl, fun hs => by rw [hs]; rfl, fun hu hcfg => by rw [hu, hcfg]; rfl,
      fun hu hcfg => by rw [hu, hcfg], fun hu hcfg => ?_⟩
    rw [hu, hcfg]
    cases hchoice : Config.uIrqChoice
    · exact .inr (by simp [statusUIE])
    · exact .inl (by simp)

/-! ### The TLB (R75, R121, R123, R124) -/

theorem inKeys_append (k : Nat) (l m : List (Nat × Nat)) : inKeys k (l ++ m) = (inKeys k l || inKeys k m) := List.any_append

/-- Cutting a range of page numbers out of the intervals takes exactly these numbers. -/
theorem inKeys_cutKeys (k lo hi : Nat) (keys : List (Nat × Nat)) :
    inKeys k (cutKeys lo hi keys) = (inKeys k keys && !(decide (lo ≤ k) && decide (k < hi))) := by
  induction keys with
  | nil => rfl
  | cons iv rest ih =>
    obtain ⟨a, b⟩ := iv
    have hleft : inKeys k (if a < min b lo then [(a, min b lo)] else []) = (decide (a ≤ k) && decide (k < min b lo)) := by
      split
      · simp [inKeys]
      · rw [Bool.eq_iff_iff]; simp [inKeys]; omega
    have hright : inKeys k (if max a hi < b then [(max a hi, b)] else []) = (decide (max a hi ≤ k) && decide (k < b)) := by
      split
      · simp [inKeys]
      · rw [Bool.eq_iff_iff]; simp [inKeys]; omega
    have hcons : inKeys k ((a, b) :: rest) = (decide (a ≤ k) && decide (k < b) || inKeys k rest) := by simp [inKeys]
    rw [cutKeys, inKeys_append, inKeys_append, hleft, hright, ih, hcons, Bool.eq_iff_iff]
    cases inKeys k rest <;> simp <;> omega

/-- The key `(k, asid)` is one of those of the page of `e` (R121). -/
def PageKey (e : TlbEntry) (k asid : Nat) : Prop :=
  asid = e.asidKey ∧ vpnOf e.vbase ≤ k ∧ k < vpnOf e.vbase + e.size / 4096

/-- An entry with the keys of its page. -/
def ownKeys (e : TlbEntry) : TlbEntry := { e with keys := [(vpnOf e.vbase, vpnOf e.vbase + e.size / 4096)] }

/-- An entry `d` without the keys of the page of `e`. -/
def cutEntry (e d : TlbEntry) : TlbEntry :=
  if d.asidKey = e.asidKey then { d with keys := cutKeys (vpnOf e.vbase) (vpnOf e.vbase + e.size / 4096) d.keys } else d

theorem tlbInsert_eq (e : TlbEntry) (tlb : List TlbEntry) :
    tlbInsert e tlb = ownKeys e :: (tlb.map (cutEntry e)).filter fun d => !d.keys.isEmpty := rfl

theorem holds_ownKeys_iff (e : TlbEntry) (k asid : Nat) : (ownKeys e).holds k asid = true ↔ PageKey e k asid := by
  simp only [TlbEntry.holds, ownKeys, inKeys, List.any_cons, List.any_nil, Bool.or_false, Bool.and_eq_true, beq_iff_eq,
    decide_eq_true_eq, PageKey]
  rw [eq_comm]

/-- Under a key that is not of the page of `e`, the cut changes nothing. -/
theorem holds_cutEntry {e : TlbEntry} {k asid : Nat} (h : ¬PageKey e k asid) (d : TlbEntry) :
    (cutEntry e d).holds k asid = d.holds k asid := by
  unfold cutEntry
  split
  · next hkey =>
    cases hd : d.asidKey == asid with
    | false => simp only [TlbEntry.holds, hd, Bool.false_and]
    | true =>
      have hrange : ¬(vpnOf e.vbase ≤ k ∧ k < vpnOf e.vbase + e.size / 4096) :=
        fun hr => h ⟨(beq_iff_eq.mp hd).symm.trans hkey, hr⟩
      simp only [TlbEntry.holds, hd, inKeys_cutKeys, ← Bool.decide_and, decide_eq_false hrange,
        Bool.not_false, Bool.and_true]
  · rfl

/-- An entry with no keys is held under none. -/
theorem keys_of_holds {d : TlbEntry} {k asid : Nat} (h : d.holds k asid = true) : d.keys.isEmpty = false := by
  cases hk : d.keys with
  | nil => simp [TlbEntry.holds, inKeys, hk] at h
  | cons _ _ => rfl

/-- Under a key that is not of the page of `e`, the old entries are found as before. -/
theorem tlbFind_cut {e : TlbEntry} {k asid : Nat} (h : ¬PageKey e k asid) (tlb : List TlbEntry) :
    tlbFind ((tlb.map (cutEntry e)).filter fun d => !d.keys.isEmpty) k asid = (tlbFind tlb k asid).map (cutEntry e) := by
  rw [tlbFind, List.find?_filter, List.find?_map, tlbFind]
  congr 2
  funext d
  rw [Function.comp_apply, holds_cutEntry h, Bool.eq_iff_iff, decide_eq_true_eq]
  exact ⟨And.right, fun hd => ⟨by rw [keys_of_holds ((holds_cutEntry h d).trans hd)]; rfl, hd⟩⟩

/-- Settles O34: the new entry comes first and has the keys of its page, and the others lose exactly those. -/
theorem tlbInsertReplacesItsKeys : Obligations.TlbInsertReplacesItsKeys := by
  intro tlb e k asid lo hi
  rw [tlbInsert_eq, tlbFind, List.find?_cons]
  constructor
  · intro h
    rw [(holds_ownKeys_iff e k asid).mpr h]
    rfl
  · intro h
    rw [Bool.eq_false_of_not_eq_true (mt (holds_ownKeys_iff e k asid).mp h)]
    show (tlbFind _ k asid).map _ = _
    rw [tlbFind_cut h, Option.map_map]
    congr 1
    funext d
    simp only [Function.comp, cutEntry]
    split <;> rfl

/-- What `sfence.vma` keeps (R123): nothing, if both operands are 0, and else the entries that its operands do not name. -/
theorem mem_tlbFlush (va : Word) (asid : Nat) (tlb : List TlbEntry) (e : TlbEntry) : e ∈ tlbFlush va asid tlb ↔
    e ∈ tlb ∧ ¬(va = 0 ∧ asid = 0) ∧ ¬((asid = 0 ∨ e.asidKey = asid) ∧
      (va = 0 ∨ (e.vbase.toNat ≤ va.toNat ∧ va.toNat < e.vbase.toNat + e.size))) := by
  unfold tlbFlush
  split
  · next h => simp [h]
  · next h =>
    rw [List.mem_filter, Bool.not_eq_true', ← Bool.not_eq_true]
    simp only [Bool.and_eq_true, Bool.or_eq_true, beq_iff_eq, TlbEntry.contains, decide_eq_true_eq]
    exact and_congr_right fun _ => ⟨fun hn => ⟨h, hn⟩, And.right⟩

theorem tlbFlush_sublist (va : Word) (asid : Nat) (tlb : List TlbEntry) : (tlbFlush va asid tlb).Sublist tlb := by
  unfold tlbFlush
  split
  · exact List.nil_sublist _
  · exact List.filter_sublist

/-- Settles O20: below U-mode's check the instruction is the flush and the advance. -/
theorem sfenceVmaFlushes : Obligations.SfenceVmaFlushes := by
  intro s rs1 rs2
  refine ⟨fun hu => if_pos hu, fun hu => ⟨_, if_neg hu, rfl, fun e => ?_, tlbFlush_sublist _ _ _, rfl⟩⟩
  exact mem_tlbFlush _ _ _ e

/-- A boundary's drops leave a part of the TLB, and nothing else changes but the index of the next free value (R76, R124). -/
theorem dropTlb_eq (s : State) : ∃ d tlb, dropTlb s = (s.withTlb tlb).withDraws d ∧ tlb.Sublist s.hart.tlb := by
  unfold dropTlb
  split
  · exact ⟨s.draws + 1, _, rfl, keptEntries_sublist _ _ _⟩
  · exact ⟨s.draws, s.hart.tlb, rfl, List.Sublist.refl _⟩

/-- Settles O35: what a boundary leaves is a sublist of the TLB, so what is found there was there before. -/
theorem tlbDropsOnlyRemove : Obligations.TlbDropsOnlyRemove := by
  intro s
  obtain ⟨d, tlb, hdrop, hsub⟩ := dropTlb_eq s
  have htlb : (dropTlb s).hart.tlb = tlb := by rw [hdrop]; rfl
  rw [htlb]
  refine ⟨hsub, ⟨d, hdrop⟩, fun hoff => dropTlb_idle (.inl hoff), fun k key e hfind => ?_⟩
  rw [tlbFind] at hfind ⊢
  rw [List.find?_isSome]
  exact ⟨e, hsub.subset (List.mem_of_find?_eq_some hfind), by simpa using List.find?_some hfind⟩

end Sys2Proof.Machine
end

section
/-! Reset, at the start and later, and what loading a machine checks (R67, R180, R185, R198, R700 to R708). -/

namespace Sys2Proof.Machine

/-! ### Reset (R68, R700 to R708) -/

/-- The harts of the Machine are numbered in order (R668). -/
theorem resetList_eq (cfg : Config) (count : Nat) : ∀ first, Hart.resetList cfg count first =
    (List.range' first count).map fun n => Hart.reset cfg (BitVec.ofNat 64 n) := by
  induction count with
  | zero => intro first; rfl
  | succ count ih =>
    intro first
    rw [Hart.resetList, ih, List.range'_succ, List.map_cons]

/-- The registers that reset gives a value (R701). -/
theorem readX_reset {s : State} {cfg : Config} {hartid : Word} (hx : s.hart.x = (Hart.reset cfg hartid).x) :
    s.readX 0 = 0 ∧ s.readX 10 = hartid ∧ s.readX 11 = cfg.dtbAddr := by
  refine ⟨readX_zero s, ?_, ?_⟩
  · rw [readX_of_ne s (by decide), hx]; rfl
  · rw [readX_of_ne s (by decide), hx]; rfl

/-- The stored values of the default table after reset (R702). -/
theorem CsrFile_reset_get_default (hartid : Word) (r : CsrReg) : (CsrFile.reset csrTable hartid).get r =
    if r = .mstatus then 0xA00000000 else if r = .misa then 0x800000000014112D
    else if r = .mhartid then hartid else 0 := by
  cases r <;> rfl

/-- Settles O54: each storage register is at its row's value, and the harts are those of the list that reset builds. -/
theorem resetLeavesTheSpecsValues : Obligations.ResetLeavesTheSpecsValues := by
  constructor
  · intro cfg hartid
    refine ⟨rfl, rfl, rfl, rfl, rfl, rfl, fun s hs => readX_reset (by rw [hs]), rfl,
      fun row a hrow hk => CsrFile_reset_get hartid hrow hk, fun htbl r => ?_⟩
    rw [← CsrFile_reset_get_default hartid r, ← htbl]
    rfl
  · intro cfg mem hcfg
    refine ⟨?_, rfl, rfl⟩
    have hharts : 1 ≤ cfg.numHarts := by
      simp only [Config.wf, Bool.and_eq_true, decide_eq_true_eq] at hcfg
      obtain ⟨⟨hharts, -⟩, -⟩ := hcfg
      exact hharts
    obtain ⟨n, hn⟩ := Nat.exists_eq_add_of_le' hharts
    show Hart.reset cfg 0 :: Hart.resetList cfg (cfg.numHarts - 1) 1 = _
    rw [hn, resetList_eq, List.range_eq_range', List.range'_succ]
    rfl

/-- Settles O55: a later reset is the hart's reset state, but for the lines. -/
theorem laterReset : Obligations.LaterReset := by
  intro s
  obtain ⟨-, h10, h11⟩ := readX_reset (s := applyEvent s .reset) (cfg := s.cfg) (hartid := s.hart.hartid) rfl
  refine ⟨rfl, fun later hsched => ?_, h10, h11, fun _ => rfl, fun row a hrow hk => ?_⟩
  · simp only [environment, hsched]
    rfl
  · rw [csrValue_of_storage (s := applyEvent s .reset) hrow hk]
    exact congrArg (fun v => some (v, applyEvent s .reset)) (CsrFile_reset_get s.hart.hartid hrow hk)

/-! ### The instruction table (R180, R185, R198) -/

theorem wellFormed_eq_false {d : Definition}
    (h : d.length ∉ [2, 4] ∨ d.bits &&& ~~~d.mask ≠ 0 ∨ d.mask &&& 3 ≠ 3) : d.wellFormed = false := by
  by_contra hwf
  simp only [Bool.not_eq_false, Definition.wellFormed, Bool.and_eq_true, Bool.or_eq_true, beq_iff_eq] at hwf
  simp only [List.mem_cons, List.not_mem_nil, or_false] at h
  tauto

/-- A definition that names no operand its handler reads has no handler (R198). -/
theorem handled_eq_false {d : Definition} {o : Operand} (ho : o ∈ (row d.op).operands)
    (h : ∀ o' ∈ d.operands, o'.label ≠ o.label) : d.handled = false := by
  have hnone : d.operand o.label = none := List.find?_eq_none.mpr (by simpa using h)
  exact List.all_eq_false.mpr ⟨o, ho, by simp [hnone]⟩

/-- At most one element of a list has a property exactly if no two of them both have it. -/
theorem filter_length_le_one_iff {α : Type} (p : α → Bool) (l : List α) :
    (l.filter p).length ≤ 1 ↔ l.Pairwise fun a b => ¬(p a = true ∧ p b = true) := by
  rw [List.pairwise_iff_forall_sublist]
  constructor
  · intro hle a b hsub hab
    have hlen := (hsub.filter p).length_le
    simp [hab.1, hab.2] at hlen
    omega
  · intro h
    by_contra hlt
    match hf : l.filter p, hlt with
    | a :: b :: rest, _ =>
      have hmem : ∀ c ∈ [a, b], p c = true := fun c hc => by
        have : c ∈ l.filter p := by rw [hf]; simp only [List.mem_cons] at hc ⊢; tauto
        exact (List.mem_filter.mp this).2
      have hsub : [a, b].Sublist l := ((List.nil_sublist rest).cons_cons b |>.cons_cons a).trans (hf ▸ List.filter_sublist)
      exact h hsub ⟨hmem a (by simp), hmem b (by simp)⟩
    | [a], hlt => simp at hlt
    | [], hlt => simp at hlt

/-- The registry accepts a table exactly if its definitions are well formed and have handlers and at most one of them matches
each mode and word (R180, R185, R198). -/
theorem accepts_iff_matches (t : List Definition) : Registry.accepts t = true ↔
    (∀ d ∈ t, d.wellFormed = true ∧ d.handled = true) ∧
    ∀ mode len w, (t.filter fun d => d.matchesWord mode len w).length ≤ 1 := by
  rw [accepts_iff]
  refine and_congr_right fun _ => ?_
  simp only [filter_length_le_one_iff, List.pairwise_iff_forall_sublist]
  tauto

theorem loadMachine_ambiguous {cfg : Config} (h : ¬Registry.accepts cfg.isaTable = true) (image : List Host.Cell) :
    loadMachine cfg image = .refused .ambiguousTable := if_neg h

/-! ### The CSR table (R67) -/

theorem loadMachine_aliasCycle {cfg : Config} (hacc : Registry.accepts cfg.isaTable = true) {a : BitVec 12} {r : CsrRow}
    (hr : csrFind cfg.csrTable a = some r) (hterm : csrTerminal cfg.csrTable a = none) (image : List Host.Cell) :
    loadMachine cfg image = .refused .aliasCycle := by
  have hcyclic : ¬csrAcyclic cfg.csrTable = true := fun hac => by
    have := csrTerminal_isSome hac (a := a) (by rw [hr]; rfl)
    rw [hterm] at this
    cases this
  unfold loadMachine
  rw [if_pos hacc, if_neg hcyclic]

theorem csrTerminalFrom_view {tbl : List CsrRow} {a base : BitVec 12} {r : CsrRow} (hr : csrFind tbl a = some r)
    (hk : r.kind = .view base) {n : Nat} (h : csrTerminalFrom tbl n base = none) : csrTerminalFrom tbl (n + 1) a = none := by
  simp only [csrTerminalFrom, hr, hk, h]

/-- On a cycle of views no address has a terminal one, however far the chain is followed. -/
theorem csrTerminalFrom_onCycle {tbl : List CsrRow} {onCycle : BitVec 12 → Prop}
    (h : ∀ a, onCycle a → ∃ r base, csrFind tbl a = some r ∧ r.kind = .view base ∧ onCycle base) (n : Nat) :
    ∀ a, onCycle a → csrTerminalFrom tbl n a = none := by
  induction n with
  | zero => intro a _; rfl
  | succ n ih =>
    intro a ha
    obtain ⟨r, base, hr, hk, hbase⟩ := h a ha
    exact csrTerminalFrom_view hr hk (ih base hbase)

theorem csrTerminalFrom_undefined {tbl : List CsrRow} {a : BitVec 12} (h : csrFind tbl a = none) (n : Nat) :
    csrTerminalFrom tbl n a = none := by
  cases n with
  | zero => rfl
  | succ n => simp only [csrTerminalFrom, h]

/-! ### The initial memory (R707) -/

theorem Memory_ofImage_concat (image : List Host.Cell) (c : Host.Cell) :
    Memory.ofImage (image ++ [c]) = Memory.write (Memory.ofImage image) c.1 c.2 := by
  simp only [Memory.ofImage, List.foldl_append, List.foldl_cons, List.foldl_nil]

theorem Memory_wf_ofImage (image : List Host.Cell) : Memory.wf (Memory.ofImage image) = true := by
  induction image using List.reverseRecOn with
  | nil => rfl
  | append_singleton image c ih =>
    rw [Memory_ofImage_concat]
    exact Memory_wf_write _ _ ih

/-- A byte of the initial memory is the last one that the image places at its address. -/
theorem Memory_read_ofImage (image : List Host.Cell) (a : Nat) : Memory.read (Memory.ofImage image) a =
    ((image.reverse.find? fun c => c.1 == a).map Prod.snd).getD Memory.unlisted := by
  induction image using List.reverseRecOn with
  | nil => rfl
  | append_singleton image c ih =>
    rw [Memory_ofImage_concat, List.reverse_concat, List.find?_cons]
    by_cases hc : c.1 = a
    · subst hc
      rw [Memory_read_write_same _ _ (Memory_wf_ofImage image), beq_self_eq_true]
      rfl
    · rw [Memory_read_write_other _ _ _ _ (Ne.symm hc), ih, beq_eq_false_iff_ne.mpr hc]

/-! ### Loading -/

/-- Settles O8: the registry's acceptance is the checks of R180, R185 and R198, a chain that never ends has no terminal
address, and the image is the memory of the reset state. -/
theorem loadChecksTheTables : Obligations.LoadChecksTheTables := by
  refine ⟨fun image => ?_, fun cfg image d hd h => ?_, fun cfg image mode len w h => ?_, fun cfg image hacc => ⟨?_, ?_⟩,
    fun cfg image hacyclic hdefs hone => ?_, fun cfg image s h => ?_⟩
  · exact (if_pos accepts_default).trans (if_pos csrAcyclic_default)
  · refine loadMachine_ambiguous (fun hacc => ?_) image
    obtain ⟨hwf, hhandled⟩ := mem_accepts hacc hd
    rcases h with h | h | h | ⟨o, ho, h⟩
    · cases hwf.symm.trans (wellFormed_eq_false (.inl h))
    · cases hwf.symm.trans (wellFormed_eq_false (.inr (.inl h)))
    · cases hwf.symm.trans (wellFormed_eq_false (.inr (.inr h)))
    · cases hhandled.symm.trans (handled_eq_false ho h)
  · refine loadMachine_ambiguous (fun hacc => ?_) image
    obtain ⟨-, hone⟩ := (accepts_iff_matches _).mp hacc
    exact absurd (hone mode len w) (Nat.not_le.mpr h)
  · intro onCycle ⟨a, ha⟩ hcycle
    obtain ⟨r, base, hr, -⟩ := hcycle a ha
    exact loadMachine_aliasCycle hacc hr (csrTerminalFrom_onCycle hcycle _ a ha) image
  · intro a r base hr hk hbase
    obtain ⟨n, hn⟩ := length_of_csrFind hr
    refine loadMachine_aliasCycle hacc hr ?_ image
    rw [csrTerminal, hn]
    exact csrTerminalFrom_view hr hk (csrTerminalFrom_undefined hbase n)
  · exact (if_pos ((accepts_iff_matches _).mpr ⟨hdefs, hone⟩)).trans (if_pos hacyclic)
  · rcases loadMachine_cases cfg image with ⟨-, hr⟩ | ⟨-, -, hr⟩ | ⟨-, -, hr⟩ <;> rw [hr] at h <;> cases h
    exact ⟨rfl, Memory_wf_ofImage image, Memory_read_ofImage image⟩

end Sys2Proof.Machine
end

section
/-! The physical bus (R100, R101, R109, R131): the value of several bytes, and the accesses that memory and device windows
answer. -/

namespace Sys2Proof.Machine

/-! ### The value of several bytes (R101) -/

/-- `n` bytes give a value of `8n` bits. -/
theorem Memory_readLE_lt (m : List Host.Cell) (n : Nat) : ∀ a, (Memory.readLE m a n).toNat < 2 ^ (8 * n) := by
  induction n with
  | zero => intro a; simp [Memory.readLE]
  | succ n ih =>
    intro a
    have hbyte : (Memory.read m a).toNat < 2 ^ (8 * (n + 1)) :=
      (Memory.read m a).isLt.trans_le (Nat.pow_le_pow_right (by decide) (by omega))
    have hrest : ((Memory.readLE m (a + 1) n).toNat <<< 8) % 2 ^ 64 < 2 ^ (8 * (n + 1)) := by
      have := ih (a + 1)
      rw [Nat.shiftLeft_eq, show 8 * (n + 1) = 8 * n + 8 by omega, Nat.pow_add]
      omega
    rw [Memory.readLE, BitVec.toNat_or, BitVec.toNat_shiftLeft]
    refine Nat.or_lt_two_pow ?_ hrest
    rw [BitVec.toNat_setWidth]
    exact (Nat.mod_le _ _).trans_lt hbyte

/-- The value of bytes is the byte at the lowest address and 256 times the value of the others. -/
theorem Memory_readLE_succ (m : List Host.Cell) (a : Nat) {n : Nat} (hn : n < 8) :
    (Memory.readLE m a (n + 1)).toNat = (Memory.read m a).toNat + (Memory.readLE m (a + 1) n).toNat * 2 ^ 8 := by
  have hbyte := (Memory.read m a).isLt
  have hrest : (Memory.readLE m (a + 1) n).toNat * 2 ^ 8 < 2 ^ 64 := by
    have h1 := Memory_readLE_lt m n (a + 1)
    have h2 : 2 ^ (8 * n) ≤ 2 ^ 56 := Nat.pow_le_pow_right (by decide) (by omega)
    omega
  rw [Memory.readLE, BitVec.toNat_or, BitVec.toNat_shiftLeft, BitVec.toNat_setWidth, Nat.mod_eq_of_lt (by omega),
    Nat.shiftLeft_eq, Nat.mod_eq_of_lt hrest, Nat.or_comm, ← Nat.shiftLeft_eq, ← Nat.shiftLeft_add_eq_or_of_lt hbyte,
    Nat.add_comm]

/-- A value is the sum of its bytes, each at its place (R101). -/
theorem Memory_readLE_toNat (m : List Host.Cell) (n : Nat) : ∀ a, n ≤ 8 → (Memory.readLE m a n).toNat =
    ((List.range n).map fun i => (Memory.read m (a + i)).toNat * 2 ^ (8 * i)).sum := by
  induction n with
  | zero => intro a _; rfl
  | succ n ih =>
    intro a hn
    rw [Memory_readLE_succ m a hn, ih (a + 1) (by omega), List.range_succ_eq_map, List.map_cons, List.sum_cons,
      List.map_map, ← List.sum_map_mul_right]
    congr 2
    · simp
    · refine congrArg (List.map · _) (funext fun i => ?_)
      simp only [Function.comp, Nat.succ_eq_add_one, show a + (i + 1) = a + 1 + i by omega, Nat.mul_add, Nat.pow_add,
        Nat.mul_one, Nat.mul_assoc]

/-- Extending a value by zeros at its own size leaves it. -/
theorem zextBytes_eq_of_lt {n : Nat} {v : Word} (h : v.toNat < 2 ^ (8 * n)) : zextBytes n v = v := by
  refine BitVec.eq_of_toNat_eq ?_
  rw [zextBytes, zext, BitVec.toNat_setWidth, BitVec.toNat_setWidth, Nat.mod_eq_of_lt h, Nat.mod_eq_of_lt v.isLt]

theorem zextBytes_readLE (m : List Host.Cell) (a n : Nat) : zextBytes n (Memory.readLE m a n) = Memory.readLE m a n :=
  zextBytes_eq_of_lt (Memory_readLE_lt m n a)

theorem sextBytes_eight (v : Word) : sextBytes 8 v = v := by
  rw [sextBytes, sext, BitVec.setWidth_eq, BitVec.signExtend_eq]

theorem lowBytes_toNat {n : Nat} (hn : n ≤ 8) (v : Word) : (lowBytes n v).toNat = v.toNat % 2 ^ (8 * n) := by
  have hlt : v.toNat % 2 ^ (8 * n) < 2 ^ 64 :=
    (Nat.mod_lt _ (by positivity)).trans_le (Nat.pow_le_pow_right (by decide) (by omega))
  rw [lowBytes, zextBytes, zext, BitVec.toNat_setWidth, BitVec.toNat_setWidth, Nat.mod_eq_of_lt hlt]

/-- A state after a store holds the bytes, and keeps every other byte. -/
theorem withMem_writeLE_holds {s : State} (hm : Memory.wf s.mem = true) (a n : Nat) (v : Word) :
    HoldsBytes (s.withMem (Memory.writeLE s.mem a n v)) a n v ∧
      OtherBytesKept a n s (s.withMem (Memory.writeLE s.mem a n v)) := writeLE_holds hm rfl

/-- Settles O25: where memory answers, a read is the sum of the bytes and a write stores exactly the bytes. -/
theorem littleEndianBus : Obligations.LittleEndianBus := by
  refine ⟨fun s pa n hn hr => ⟨_, busRead_of_ramAt hr, Memory_readLE_toNat s.mem n pa.toNat ?_⟩,
    fun s pa v n _ hr hm => ?_, fun s h => by simp only [step, h]⟩
  · simp only [List.mem_cons, List.not_mem_nil, or_false] at hn
    omega
  · obtain ⟨hb, ho⟩ := withMem_writeLE_holds hm pa.toNat n v
    exact ⟨_, busWrite_of_ramAt v hr, hb, ho, Memory_wf_writeLE n _ _ _ hm, rfl⟩

/-! ### Device windows (R109, R667) -/

/-- Where a device answers, a read gives a free value of `8n` bits and is logged. -/
theorem busRead_of_deviceAt {s : State} {pa : Word} {n : Nat} (h : DeviceAt s pa n) :
    busRead pa n s =
      .ok (lowBytes n s.draw) (s.nextDraw.withBusLog (⟨false, pa, n, lowBytes n s.draw⟩ :: s.busLog)) := by
  obtain ⟨r, hr, hk⟩ := h
  simp only [busRead, hr, hk]

/-- Where a device answers, a write is logged. -/
theorem busWrite_of_deviceAt {s : State} {pa : Word} {n : Nat} (v : Word) (h : DeviceAt s pa n) :
    busWrite pa n v s = .ok () (s.withBusLog (⟨true, pa, n, lowBytes n v⟩ :: s.busLog)) := by
  obtain ⟨r, hr, hk⟩ := h
  simp only [busWrite, hr, hk]

end Sys2Proof.Machine
end

section
/-! Address translation (R110 to R121): which mode walks, what Touch checks and writes, what a walk does with the entry it finds
in the TLB or in memory, and the bits of the address a leaf gives. -/

namespace Sys2Proof.Machine

/-! ### The mode (R110, R111) -/

/-- Below M-mode an implemented MODE is a walk of its levels. -/
theorem translate_walks {s : State} {levels : Nat} (hm : s.hart.priv ≠ .machine)
    (hl : satpLevels (satpMode s.hart.csr.satp) = some levels) (va : Word) (kind : Access) :
    translate va kind s = walk levels va kind (satpAsid s.hart.csr.satp) (satpPpn s.hart.csr.satp) s := by
  have hbare : satpMode s.hart.csr.satp ≠ 0 := fun h => by rw [h] at hl; cases hl
  simp only [translate, if_neg hm, if_neg hbare, hl]

theorem satpLevels_eq_none {mode : Nat} (h : mode ∉ [8, 9, 10]) : satpLevels mode = none := by
  unfold satpLevels
  split <;> simp_all

/-- Below M-mode a MODE that is neither bare nor implemented is a model fault (R111). -/
theorem translate_unsupported {s : State} (hm : s.hart.priv ≠ .machine) (h : satpMode s.hart.csr.satp ∉ [0, 8, 9, 10])
    (va : Word) (kind : Access) : translate va kind s = .fault .unsupportedSatpMode := by
  rw [List.mem_cons, not_or] at h
  obtain ⟨hbare, hmode⟩ := h
  simp only [translate, if_neg hm, if_neg hbare, satpLevels_eq_none hmode]

/-- Settles O28: M-mode and bare mode use the address, and the other modes are `satpLevels`. -/
theorem translateByMode : Obligations.TranslateByMode := by
  refine fun va kind s => ⟨fun h => translate_untranslated (.inl h) va kind, fun h => translate_untranslated (.inr h) va kind,
    fun hm => ⟨fun levels h => translate_walks hm ?_ va kind, fun h => translate_unsupported hm h va kind⟩⟩
  simp only [List.mem_cons, Prod.mk.injEq, List.not_mem_nil, or_false] at h
  rcases h with ⟨hmode, rfl⟩ | ⟨hmode, rfl⟩ | ⟨hmode, rfl⟩ <;> rw [hmode] <;> rfl

/-! ### Touch (R116 to R119) -/

section
variable {e : TlbEntry} {kind : Access} {s : State}

/-- A failed check is the page fault of the access, and nothing is written (R126). -/
theorem touch_denied (h : touchAllowed e.pte kind s.hart.priv (statusSUM s.hart.csr.mstatus) = false) (va : Word) :
    touch e va kind s = .raise kind.pageFault va s := by
  rw [touch, h]
  rfl

/-- The A/D update is due when A is clear, or when a write finds D clear (R119). -/
theorem touchDue_iff (p : Word) (kind : Access) :
    touchDue p kind = true ↔ pteA p = false ∨ (kind = .write ∧ pteD p = false) := by
  simp [touchDue]

theorem touchDue_eq_false {p : Word} (ha : pteA p = true) (hd : kind = .write → pteD p = true) :
    touchDue p kind = false := by
  rw [← Bool.not_eq_true, touchDue_iff]
  rintro (h | ⟨hk, h⟩)
  · cases ha.symm.trans h
  · cases (hd hk).symm.trans h

/-- A is set, D by a write, and no other bit changes (R119). -/
theorem bit_touchedPte (p : Word) (kind : Access) (i : Nat) :
    bit (touchedPte p kind) i = (bit p i || i == 6 || (i == 7 && kind == .write)) := by
  have hA : bit (touchedPte p kind) i = if i = 6 then true else bit (if kind = .write then setBit p 7 true else p) i :=
    bit_setBit _ _ _ _ (by decide)
  have hD : bit (setBit p 7 true) i = if i = 7 then true else bit p i := bit_setBit _ _ _ _ (by decide)
  have hbeq (k : Nat) : (i == k) = decide (i = k) := rfl
  rw [hA, hbeq, hbeq]
  cases kind with
  | fetch | read => by_cases h6 : i = 6 <;> simp [h6]
  | write =>
    rw [if_pos rfl, hD]
    by_cases h6 : i = 6 <;> by_cases h7 : i = 7 <;> simp [h6, h7]

section
variable (hallowed : touchAllowed e.pte kind s.hart.priv (statusSUM s.hart.csr.mstatus) = true)
include hallowed

/-- Where no update is due, an access that is allowed changes nothing (R119). -/
theorem touch_clean (ha : pteA e.pte = true) (hd : kind = .write → pteD e.pte = true) (va : Word) :
    touch e va kind s = .ok e s := by
  rw [touch, hallowed, touchDue_eq_false ha hd]
  rfl

/-- Where an update is due, it is an 8-byte write at the entry's own address (R119). -/
theorem touch_due (hdue : pteA e.pte = false ∨ (kind = .write ∧ pteD e.pte = false)) (va : Word) :
    touch e va kind s = (busWrite e.pteAddr 8 (touchedPte e.pte kind) s).bind fun _ s' =>
      .ok { e with pte := touchedPte e.pte kind } s' := by
  rw [touch, hallowed, (touchDue_iff _ _).mpr hdue]
  rfl

/-- Where memory answers, the update is in memory and in the entry, and nothing else changes (R119). -/
theorem touch_due_of_ramAt (hdue : pteA e.pte = false ∨ (kind = .write ∧ pteD e.pte = false)) (hr : RamAt s e.pteAddr 8)
    (va : Word) : touch e va kind s = .ok { e with pte := touchedPte e.pte kind }
      (s.withMem (Memory.writeLE s.mem e.pteAddr.toNat 8 (touchedPte e.pte kind))) := by
  rw [touch_due hallowed hdue, busWrite_of_ramAt _ hr, bind_ok]

end

/-! ### A hit (R112, R121) -/

/-- A hit is Touch on the entry found, and the address it gives. -/
theorem walk_hit {va : Word} {asid : Nat} (h : tlbLookup s.hart.tlb va asid = some e) (levels : Nat) (kind : Access)
    (root : Word) : walk levels va kind asid root s = (touch e va kind s).bind fun e' s' =>
      .ok (e.physical va) (s'.withTlb (tlbUpdate e e' s'.hart.tlb)) := by
  simp only [walk, h]

theorem tlbUpdate_same (e : TlbEntry) (tlb : List TlbEntry) : tlbUpdate e e tlb = tlb := by
  refine (List.map_congr_left fun d _ => ?_).trans (List.map_id tlb)
  split
  · next h => exact h.symm
  · rfl

/-- An update leaves the keys of every entry, so each key leads to what its entry became (R121). -/
theorem tlbFind_tlbUpdate (e : TlbEntry) (p : Word) (tlb : List TlbEntry) (k key : Nat) :
    tlbFind (tlbUpdate e { e with pte := p } tlb) k key =
      (tlbFind tlb k key).map fun d => if d = e then { e with pte := p } else d := by
  have hkeys : ((fun d : TlbEntry => d.holds k key) ∘ fun d => if d = e then { e with pte := p } else d) =
      fun d => d.holds k key := by
    funext d
    rw [Function.comp]
    split
    · next h => rw [h]; rfl
    · rfl
  rw [tlbFind, tlbUpdate, List.find?_map, hkeys, tlbFind]

end

/-- Settles O30: the update that is due is one write, whose bits are those of the entry with A, and D for a write. -/
theorem touchUpdatesAccessedAndDirty : Obligations.TouchUpdatesAccessedAndDirty := by
  intro e va kind s hallowed
  refine ⟨fun ha hd => touch_clean hallowed ha hd va, fun hdue hr hm => ?_⟩
  obtain ⟨hb, ho⟩ := withMem_writeLE_holds hm e.pteAddr.toNat 8 (touchedPte e.pte kind)
  exact ⟨_, _, touch_due_of_ramAt hallowed hdue hr va, bit_touchedPte _ _, hb, ho, rfl⟩

/-- Settles O31: a hit is Touch, and what Touch gives back takes the place of the entry in the TLB. -/
theorem tlbHitTranslates : Obligations.TlbHitTranslates := by
  intro va kind s e levels root asid hit hallowed
  rw [walk_hit hit]
  refine ⟨fun ha hd => ?_, fun hdue hr hm => ?_⟩
  · rw [touch_clean hallowed ha hd, bind_ok, tlbUpdate_same]
    rfl
  · rw [touch_due_of_ramAt hallowed hdue hr]
    obtain ⟨hb, ho⟩ := withMem_writeLE_holds hm e.pteAddr.toNat 8 (touchedPte e.pte kind)
    exact ⟨_, _, rfl, bit_touchedPte _ _, hb, ho, tlbFind_tlbUpdate e _ s.hart.tlb, rfl⟩

/-! ### A level of the descent (R113 to R116) -/

section
variable {va a p : Word} {kind : Access} {asid i : Nat} {s : State} (hr : RamAt s (pteAddress a va i) 8)
  (hp : p = Memory.readLE s.mem (pteAddress a va i).toNat 8)
include hr hp

/-- An invalid entry is the page fault of the access (R115). -/
theorem descend_invalid (h : pteV p = false ∨ (pteW p = true ∧ pteR p = false)) :
    descend va kind asid (i + 1) a s = .raise kind.pageFault va s := by
  have hinv : pteInvalid p = true := by simpa [pteInvalid] using h
  rw [descend, busRead_of_ramAt hr, bind_ok, ← hp, hinv]
  rfl

/-- A valid entry that is no leaf names the next table (R115). -/
theorem descend_pointer (hv : pteV p = true) (hR : pteR p = false) (hW : pteW p = false) (hX : pteX p = false) :
    descend va kind asid (i + 1) a s = descend va kind asid i (ptePpn p) s := by
  have hinv : pteInvalid p = false := by simp [pteInvalid, hv, hW]
  have hleaf : pteLeaf p = false := by simp [pteLeaf, hR, hX]
  rw [descend, busRead_of_ramAt hr, bind_ok, ← hp, hinv, hleaf]
  rfl

/-- A leaf is touched and inserted (R116). -/
theorem descend_leaf (hv : pteV p = true) (h : pteR p = true ∨ (pteX p = true ∧ pteW p = false)) :
    descend va kind asid (i + 1) a s = (touch (leafEntry va asid i (pteAddress a va i) p) va kind s).bind fun e t =>
      .ok (e.physical va) (t.withTlb (tlbInsert e t.hart.tlb)) := by
  have hinv : pteInvalid p = false := by
    rcases h with h | ⟨-, h⟩ <;> simp [pteInvalid, hv, h]
  have hleaf : pteLeaf p = true := by
    rcases h with h | ⟨h, -⟩ <;> simp [pteLeaf, h]
  rw [descend, busRead_of_ramAt hr, bind_ok, ← hp, hinv, hleaf]
  rfl

end

/-- Settles O29: Touch raises before anything else, and a hit and a leaf are Touch. -/
theorem touchChecks : Obligations.TouchChecks := by
  refine ⟨fun p priv sum hm => ?_, fun e va kind s h => ⟨touch_denied h va, fun levels asid root hit => ?_⟩,
    fun va a kind asid i s hr p hp hv hleaf h => ?_, rfl, rfl, rfl⟩
  · cases priv with
    | machine => exact absurd rfl hm
    | user | supervisor => cases hU : pteU p <;> simp [touchAllowed, hU]
  · rw [walk_hit hit, touch_denied h, bind_raise]
  · rw [descend_leaf hr hp hv hleaf, touch_denied (e := leafEntry va asid i (pteAddress a va i) p) h, bind_raise]

/-- Settles O32: each class of entries is one branch of the descent, and a leaf is Touch and an insertion. -/
theorem walkClassifiesEntries : Obligations.WalkClassifiesEntries := by
  refine fun va a kind asid s => ⟨rfl, fun i hr p hp => ⟨descend_invalid hr hp, descend_pointer hr hp,
    fun hv hleaf hallowed ha hd => ?_, fun hv hleaf hallowed hdue hm => ?_⟩⟩
  · rw [descend_leaf hr hp hv hleaf, touch_clean (e := leafEntry va asid i (pteAddress a va i) p) hallowed ha hd, bind_ok]
  · rw [descend_leaf hr hp hv hleaf,
      touch_due_of_ramAt (e := leafEntry va asid i (pteAddress a va i) p) hallowed hdue hr, bind_ok]
    obtain ⟨hb, ho⟩ := withMem_writeLE_holds hm (pteAddress a va i).toNat 8 (touchedPte p kind)
    exact ⟨_, _, rfl, bit_touchedPte _ _, hb, ho, rfl, rfl⟩

/-! ### The address a leaf gives (R113, R116, R120) -/

theorem bit_ext {v w : Word} (h : ∀ k, bit v k = bit w k) : v = w := BitVec.eq_of_getLsbD_eq fun k _ => h k

theorem bit_or (v w : Word) (k : Nat) : bit (v ||| w) k = (bit v k || bit w k) := BitVec.getLsbD_or

theorem bit_and (v w : Word) (k : Nat) : bit (v &&& w) k = (bit v k && bit w k) := BitVec.getLsbD_and

/-- The offset of an address in its page of level `i`. -/
def pageOffset (a : Word) (i : Nat) : Word := a &&& BitVec.ofNat 64 (pageSize i - 1)

/-- A page number stands in bits 53:10 of its entry, and in bits 55:12 of an address (R113, R114). -/
theorem bit_ptePpn_shiftLeft {k : Nat} (hk : 12 ≤ k) (p : Word) :
    bit (ptePpn p <<< 12) k = (decide (k < 56) && bit p (k - 2)) := by
  have hfield : bit (ptePpn p) (k - 12) = (decide (k < 56) && bit p (k - 2)) := by
    rw [ptePpn, bit_field _ _ _ _ (by decide), show 10 + (k - 12) = k - 2 by omega]
    exact congrArg (· && _) (decide_eq_decide.mpr (by omega))
  rw [bit, BitVec.getLsbD_shiftLeft, ← bit, hfield]
  by_cases h56 : k < 56
  · simp [show k < 64 by omega, hk]
  · simp [h56]

section
variable {i : Nat} (hi : 12 + 9 * i ≤ 64)
include hi

theorem bit_pageOffset (a : Word) (k : Nat) : bit (pageOffset a i) k = (bit a k && decide (k < 12 + 9 * i)) := by
  rw [pageOffset, bit_and, pageSize, bit.eq_def (BitVec.ofNat 64 _), getLsbD_lowMask _ _ hi]

theorem bit_pageBase (a : Word) (k : Nat) : bit (pageBase a i) k = (bit a k && !decide (k < 12 + 9 * i)) := by
  rw [pageBase, bit_and, pageSize, bit.eq_def (~~~_), BitVec.getLsbD_not, getLsbD_lowMask _ _ hi]
  by_cases hk : k < 64
  · simp [hk]
  · simp [bit, BitVec.getLsbD_of_ge a k (by omega)]

/-- A page base and an offset have no bit in common. -/
theorem pageBase_and_pageOffset (a b : Word) : pageBase a i &&& pageOffset b i = 0 := by
  refine bit_ext fun k => ?_
  rw [bit_and, bit_pageBase hi, bit_pageOffset hi]
  by_cases hk : k < 12 + 9 * i <;> simp [hk, bit]

/-- An address is the base of its page and its offset in it. -/
theorem pageBase_add_pageOffset (a : Word) : pageBase a i + pageOffset a i = a := by
  rw [BitVec.add_eq_or_of_and_eq_zero _ _ (pageBase_and_pageOffset hi a a)]
  refine bit_ext fun k => ?_
  rw [bit_or, bit_pageBase hi, bit_pageOffset hi]
  by_cases hk : k < 12 + 9 * i <;> simp [hk]

theorem pageOffset_lt (a : Word) : (pageOffset a i).toNat < pageSize i := by
  refine Nat.lt_pow_two_of_testBit _ fun k hk => ?_
  have hbit := bit_pageOffset hi a k
  rwa [decide_eq_false (by omega), Bool.and_false] at hbit

/-- An address lies in its own page, also in the last one (R112, log entry 25). -/
theorem mem_own_page (a : Word) :
    (pageBase a i).toNat ≤ a.toNat ∧ a.toNat < (pageBase a i).toNat + pageSize i := by
  have hsum := BitVec.toNat_add_of_and_eq_zero (pageBase_and_pageOffset hi a a)
  rw [pageBase_add_pageOffset hi] at hsum
  have hlt := pageOffset_lt hi a
  omega

/-- The address a leaf gives is the base of its physical page and the offset of the virtual address (R113). -/
theorem physical_leafEntry (va pteAddr p : Word) (asid : Nat) :
    (leafEntry va asid i pteAddr p).physical va = pageBase (ptePpn p <<< 12) i ||| pageOffset va i := by
  have hoffset : va - pageBase va i = pageOffset va i := by
    rw [BitVec.sub_eq_iff_eq_add, BitVec.add_comm, pageBase_add_pageOffset hi]
  rw [← BitVec.add_eq_or_of_and_eq_zero _ _ (pageBase_and_pageOffset hi _ _), ← hoffset]
  rfl

/-- The bits of the address a leaf gives: the offset of the virtual address, then the bits of the page number (R120). -/
theorem bit_physical_leafEntry (va pteAddr p : Word) (asid k : Nat) :
    bit ((leafEntry va asid i pteAddr p).physical va) k =
      if k < 12 + 9 * i then bit va k else decide (k < 56) && bit p (k - 2) := by
  rw [physical_leafEntry hi, bit_or, bit_pageBase hi, bit_pageOffset hi]
  by_cases hk : k < 12 + 9 * i
  · simp [hk]
  · rw [bit_ptePpn_shiftLeft (by omega)]
    simp [hk]

end

/-- Settles O33: the address of a leaf, bit by bit, and an address lies in its own page. -/
theorem leafKeepsThePageOffset : Obligations.LeafKeepsThePageOffset := by
  intro va pteAddr p asid i hi e
  have hi' : 12 + 9 * i ≤ 64 := by omega
  have hbit := bit_physical_leafEntry hi' va pteAddr p asid
  refine ⟨fun k hk => by rw [hbit, if_pos hk], fun k hlo hhi => ?_, Nat.lt_pow_two_of_testBit _ fun k hk => ?_, ?_, ?_, rfl⟩
  · rw [hbit, if_neg (by omega), decide_eq_true hhi, Bool.true_and]
  · have hk' := hbit k
    rwa [if_neg (by omega), decide_eq_false (by omega), Bool.false_and] at hk'
  · obtain ⟨hlo, hhi⟩ := mem_own_page hi' va
    exact Bool.and_eq_true_iff.mpr ⟨decide_eq_true hlo, decide_eq_true hhi⟩
  · show 2 ^ (12 + 9 * i) = _
    rw [Nat.pow_add, Nat.pow_mul]

end Sys2Proof.Machine
end

section
/-! Entering a trap (R641 to R646): the state that `takeTrap` answers is the one that the claims describe. -/

namespace Sys2Proof.Machine

/-! ### The fields that trap entry writes -/

/-- The value of a cause register, for the codes of R630 and R631. -/
theorem causeValue_eq : ∀ interrupt : Bool, ∀ code < 16,
    causeValue interrupt code = (if interrupt then 1 <<< 63 else 0) ||| BitVec.ofNat 64 code := by decide

theorem TrapEvent_code_lt (ev : TrapEvent) : ev.code < 16 := by
  rcases ev with e | c
  · cases e <;> decide
  · cases c <;> decide

theorem handlerAddress_eq (tvec : Word) (ev : TrapEvent) : handlerAddress tvec ev =
    if ev.isInterrupt ∧ tvec &&& 3 = 1 then (tvec &&& ~~~3) + BitVec.ofNat 64 (4 * ev.code) else tvec &&& ~~~3 := by
  have hmode : tvecMode tvec = tvec &&& 3 := by simp [tvecMode, field]
  simp only [handlerAddress, hmode, tvecBase, and_comm]

/-- A trap's write of a saved pc is the masked write of its register (R642). -/
theorem savesPc_maskedWrite (tbl : List CsrRow) {a : BitVec 12} (ha : savedPcMask csrTable a = ~~~1) (old epc : Word) :
    SavesPc tbl a old epc (maskedWrite old (savedPcMask tbl a) epc) := by
  refine ⟨rfl, ?_⟩
  rintro rfl
  rw [ha, maskedWrite, BitVec.not_not]

/-! ### `mstatus` on entry (R643, R644) -/

theorem statusMPP_trapM (v : Word) (p : Priv) : statusMPP (statusTrapM v p) = p.code := by
  have hfield : field (statusTrapM v p) 11 2 = field (BitVec.ofNat 64 p.code) 0 2 := by
    refine bit_ext fun i => ?_
    rw [bit_field _ _ _ _ (by decide), bit_field _ _ _ _ (by decide), statusTrapM, bit_setField _ _ _ _ _ (by decide)]
    by_cases hi : i < 2
    · rw [if_pos (by omega), show 11 + i - 11 = 0 + i by omega]
    · simp [hi]
  rw [statusMPP, hfield]
  cases p <;> decide

theorem bit_statusTrapM (v : Word) (p : Priv) {i : Nat} (h11 : i ≠ 11) (h12 : i ≠ 12) :
    bit (statusTrapM v p) i = if i = 3 then false else if i = 7 then statusMIE v else bit v i := by
  rw [statusTrapM, bit_setField _ _ _ _ _ (by decide), if_neg (by omega), bit_setBit _ _ _ _ (by decide),
    bit_setBit _ _ _ _ (by decide)]

theorem bit_statusTrapS (v : Word) (p : Priv) (i : Nat) : bit (statusTrapS v p) i =
    if i = 8 then decide (p = .supervisor) else if i = 1 then false else if i = 5 then statusSIE v else bit v i := by
  rw [statusTrapS, bit_setBit _ _ _ _ (by decide), bit_setBit _ _ _ _ (by decide), bit_setBit _ _ _ _ (by decide)]

/-! ### The state after entry -/

section
variable {ev : TrapEvent} {s : State} (tval epc : Word)

/-- The state after a trap to M (R643, R645, R646). -/
theorem trapState_of_machine (h : trapTarget ev s.hart = .machine) : trapState ev tval epc s =
    ((s.withCsr { s.hart.csr with
        mepc := maskedWrite s.hart.csr.mepc (savedPcMask s.cfg.csrTable 0x341) epc
        mcause := causeValue ev.isInterrupt ev.code
        mtval := tval
        mstatus := statusTrapM s.hart.csr.mstatus s.hart.priv }).withPriv .machine).withPc
      (handlerAddress s.hart.csr.mtvec ev) := by
  simp only [trapState, h, trapVector]
  rfl

/-- The state after a trap to S (R644, R645, R646). -/
theorem trapState_of_supervisor (h : trapTarget ev s.hart = .supervisor) : trapState ev tval epc s =
    ((s.withCsr { s.hart.csr with
        sepc := maskedWrite s.hart.csr.sepc (savedPcMask s.cfg.csrTable 0x141) epc
        scause := causeValue ev.isInterrupt ev.code
        stval := tval
        mstatus := statusTrapS s.hart.csr.mstatus s.hart.priv }).withPriv .supervisor).withPc
      (handlerAddress s.hart.csr.stvec ev) := by
  simp only [trapState, h, trapVector]
  rfl

/-- A trap whose target is M enters M. -/
theorem trapState_entersM (h : trapTarget ev s.hart = .machine) :
    EntersM ev.isInterrupt ev.code tval epc s (trapState ev tval epc s) := by
  rw [trapState_of_machine _ _ h]
  refine ⟨savesPc_maskedWrite _ savedPcMask_default.1 _ _, causeValue_eq ev.isInterrupt ev.code (TrapEvent_code_lt ev), rfl, ?_, ?_,
    statusMPP_trapM _ _, fun i h3 h7 h11 h12 => ?_, rfl, handlerAddress_eq _ _, s.draws, rfl⟩
  · exact bit_statusTrapM _ _ (by decide) (by decide)
  · exact bit_statusTrapM _ _ (by decide) (by decide)
  · exact (bit_statusTrapM _ _ h11 h12).trans (by rw [if_neg h3, if_neg h7])

/-- A trap whose target is S enters S. -/
theorem trapState_entersS (h : trapTarget ev s.hart = .supervisor) :
    EntersS ev.isInterrupt ev.code tval epc s (trapState ev tval epc s) := by
  rw [trapState_of_supervisor _ _ h]
  refine ⟨savesPc_maskedWrite _ savedPcMask_default.2 _ _, causeValue_eq ev.isInterrupt ev.code (TrapEvent_code_lt ev), rfl,
    bit_statusTrapS _ _ 5, bit_statusTrapS _ _ 1, bit_statusTrapS _ _ 8, fun i h1 h5 h8 => ?_, rfl,
    handlerAddress_eq _ _, s.draws, rfl⟩
  exact (bit_statusTrapS _ _ i).trans (by rw [if_neg h8, if_neg h1, if_neg h5])

end

/-! ### Exceptions (R641, R642) -/

theorem trapTarget_delegated {e : Exc} {h : Hart} (hd : Delegated e.code h) :
    trapTarget (.exception e) h = .supervisor := if_pos hd

theorem trapTarget_not_delegated {e : Exc} {h : Hart} (hd : ¬Delegated e.code h) :
    trapTarget (.exception e) h = .machine := if_neg hd

/-- An exception with a handler is taken, with the address of the instruction saved. -/
theorem raiseExc_takesException {e : Exc} {s : State} (h : HandlerInstalled e.code s.hart) (tval : Word) :
    ∃ t, raiseExc e tval s = .next t ∧ TakesException e.code tval s t := by
  obtain ⟨hS, hM⟩ := h
  refine ⟨_, takeTrap_enter ?_, fun hd => trapState_entersS tval _ (trapTarget_delegated hd),
    fun hd => trapState_entersM tval _ (trapTarget_not_delegated hd)⟩
  by_cases hd : Delegated e.code s.hart
  · rw [trapTarget_delegated hd]
    exact hS hd
  · rw [trapTarget_not_delegated hd]
    exact hM hd

end Sys2Proof.Machine
end

section
/-! The instructions that access memory: loads, stores and atomics, untranslated and translated, at addresses that memory, a
device or nothing answers (R104 to R109, R126 to R131, R340 to R351, R380 to R402). -/

namespace Sys2Proof.Machine

section
variable {i : Instr} {s : State} {len n : Nat} {rd rs1 rs2 : BitVec 5}

/-- With the FP loads, stores and moves implemented the gate is open (R490). -/
theorem fpGate_implemented (h : s.cfg.fpMemoryOps = .implemented) (act : State → Result) : fpGate act s = act s := by
  simp only [fpGate, h]

/-! ### Atomics, aligned or not (R106) -/

theorem loadReserved_aligned (h : (s.readX rs1).toNat % n = 0) :
    loadReserved n rd rs1 s = load s.len.bytes n (sextBytes n) rd (s.readX rs1) s := by
  simp [loadReserved, alignedTo, h]

theorem loadReserved_misaligned (h : (s.readX rs1).toNat % n ≠ 0) :
    loadReserved n rd rs1 s = raiseExc .loadAddressMisaligned (s.readX rs1) s := by
  simp [loadReserved, alignedTo, h]

theorem storeConditional_misaligned (h : (s.readX rs1).toNat % n ≠ 0) :
    storeConditional n rd rs1 rs2 s = raiseExc .storeAmoAddressMisaligned (s.readX rs1) s := by
  simp [storeConditional, alignedTo, h]

theorem amo_misaligned (op : BitVec (8 * n) → BitVec (8 * n) → BitVec (8 * n)) (h : (s.readX rs1).toNat % n ≠ 0) :
    amo n op rd rs1 rs2 s = raiseExc .storeAmoAddressMisaligned (s.readX rs1) s := by
  simp [amo, alignedTo, h]

theorem Raises_of_raiseExc {e : Exc} {tval : Word} (h : exec i s = raiseExc e tval s) (hi : HandlerInstalled e.code s.hart) :
    Raises i e.code tval s := by
  obtain ⟨t, ht, htakes⟩ := raiseExc_takesException hi tval
  exact ⟨t, h.trans ht, htakes⟩

theorem Raises_of_misaligned_storeConditional (h : exec i s = storeConditional n rd rs1 rs2 s)
    (hal : (s.readX rs1).toNat % n ≠ 0) (hi : HandlerInstalled 6 s.hart) : Raises i 6 (s.readX rs1) s :=
  Raises_of_raiseExc (e := .storeAmoAddressMisaligned) (h.trans (storeConditional_misaligned hal)) hi

theorem Raises_of_misaligned_amo {op : BitVec (8 * n) → BitVec (8 * n) → BitVec (8 * n)}
    (h : exec i s = amo n op rd rs1 rs2 s) (hal : (s.readX rs1).toNat % n ≠ 0) (hi : HandlerInstalled 6 s.hart) :
    Raises i 6 (s.readX rs1) s :=
  Raises_of_raiseExc (e := .storeAmoAddressMisaligned) (h.trans (amo_misaligned op hal)) hi

theorem Raises_of_misaligned_loadReserved (h : exec i s = loadReserved n rd rs1 s)
    (hal : (s.readX rs1).toNat % n ≠ 0) (hi : HandlerInstalled 4 s.hart) : Raises i 4 (s.readX rs1) s :=
  Raises_of_raiseExc (e := .loadAddressMisaligned) (h.trans (loadReserved_misaligned hal)) hi

end

/-- Settles O48: the alignment check comes first in the three atomic operations. -/
theorem misalignedAtomicsTrap : Obligations.MisalignedAtomicsTrap := by
  intro s i rd rs1 rs2 aq rl
  refine ⟨?_, ?_, fun hal hi hmem => ?_, fun hal hi hmem => ?_⟩
  · rintro hal hi rfl
    exact Raises_of_misaligned_loadReserved rfl hal hi
  · rintro hal hi rfl
    exact Raises_of_misaligned_loadReserved rfl hal hi
  · rcases List.mem_cons.mp hmem with rfl | hmem
    · exact Raises_of_misaligned_storeConditional rfl hal hi
    · fin_cases hmem <;> exact Raises_of_misaligned_amo rfl hal hi
  · rcases List.mem_cons.mp hmem with rfl | hmem
    · exact Raises_of_misaligned_storeConditional rfl hal hi
    · fin_cases hmem <;> exact Raises_of_misaligned_amo rfl hal hi

/-- Settles O46: an aligned load-reserved is a load, and store-conditional a store that writes 0. -/
theorem loadReservedStoreConditional : Obligations.LoadReservedStoreConditional := by
  intro s rd rs1 rs2 aq rl hm a
  refine ⟨fun hal ha => ⟨?_, Exchanges_of_storeConditional rfl hm hal ha⟩,
    fun hal ha => ⟨?_, Exchanges_of_storeConditional rfl hm hal ha⟩⟩
  · exact WritesX_of_load (loadReserved_aligned hal) ha rfl
  · exact WritesX_of_load (loadReserved_aligned hal) ha (sextBytes_eight _)

/-! ### Translated accesses (R104, R105, R126, R128) -/

section
variable {i : Instr} {s : State} {len n : Nat} {rd rs1 rs2 : BitVec 5} {ea : Word}

/-- A load that extends by zeros writes the bytes themselves. -/
theorem AccessesThrough_of_zextLoad (h : exec i s = load len n (zextBytes n) rd ea s) :
    AccessesThrough .read i ea n (fun pa t => (t.writeX rd (Memory.readLE t.mem pa.toNat n)).retire len) s := by
  simpa only [zextBytes_readLE] using AccessesThrough_of_load h

/-- An FP load of a word puts it in its box. -/
theorem AccessesThrough_of_boxedLoad (h : exec i s = loadF len 4 nanBox rd ea s) :
    AccessesThrough .read i ea 4
      (fun pa t => (t.writeF rd (0xFFFFFFFF00000000 ||| Memory.readLE t.mem pa.toNat 4)).retire len) s := by
  have hbox (m : List Host.Cell) (a : Nat) : nanBox (Memory.readLE m a 4) = 0xFFFFFFFF00000000 ||| Memory.readLE m a 4 :=
    congrArg (0xFFFFFFFF00000000 ||| ·) (zextBytes_readLE m a 4)
  simpa only [hbox] using AccessesThrough_of_loadF h

/-- A load-reserved of a doubleword writes the bytes themselves. -/
theorem AccessesThrough_of_loadReservedDouble (h : exec i s = loadReserved 8 rd rs1 s) (hal : (s.readX rs1).toNat % 8 = 0) :
    AccessesThrough .read i (s.readX rs1) 8
      (fun pa t => (t.writeX rd (Memory.readLE t.mem pa.toNat 8)).retire s.len.bytes) s := by
  simpa only [sextBytes_eight] using AccessesThrough_of_loadReserved h hal

/-- An AMO on doublewords works on the values themselves. -/
theorem AccessesThrough_of_amoDouble {op : Word → Word → Word} (h : exec i s = amo 8 op rd rs1 rs2 s)
    (hal : (s.readX rs1).toNat % 8 = 0) :
    AccessesThrough .write i (s.readX rs1) 8 (fun pa t =>
      let old := Memory.readLE t.mem pa.toNat 8
      ((t.withMem (Memory.writeLE t.mem pa.toNat 8 (op old (s.readX rs2)))).writeX rd old).retire s.len.bytes) s := by
  simpa only [sextBytes_eight, zext, BitVec.setWidth_eq] using AccessesThrough_of_amo (.inr rfl) h hal

end

/-- Settles O36: each instruction is one of the four loads and stores, at its own width and length. -/
theorem dataAccesses : Obligations.DataAccesses := by
  refine ⟨fun s rd rs1 rs2 imm p q u7 u8 u9 => ?_, fun s rd rs1 rs2 imm p q u8 u9 hfp => ?_⟩
  · exact ⟨AccessesThrough_of_load (extend := sextBytes 1) rfl, AccessesThrough_of_zextLoad rfl,
      AccessesThrough_of_load (extend := sextBytes 2) rfl, AccessesThrough_of_zextLoad rfl,
      AccessesThrough_of_load (extend := sextBytes 4) rfl, AccessesThrough_of_zextLoad rfl,
      AccessesThrough_of_load (extend := id) rfl, AccessesThrough_of_store rfl, AccessesThrough_of_store rfl,
      AccessesThrough_of_store rfl, AccessesThrough_of_store rfl, AccessesThrough_of_load (extend := sextBytes 4) rfl,
      AccessesThrough_of_load (extend := id) rfl, AccessesThrough_of_load (extend := sextBytes 4) rfl,
      AccessesThrough_of_load (extend := id) rfl, AccessesThrough_of_store rfl, AccessesThrough_of_store rfl,
      AccessesThrough_of_store rfl, AccessesThrough_of_store rfl⟩
  · have hopen := fpGate_implemented hfp
    exact ⟨AccessesThrough_of_boxedLoad (hopen _), AccessesThrough_of_loadF (box := id) (hopen _),
      AccessesThrough_of_loadF (box := id) (hopen _), AccessesThrough_of_loadF (box := id) (hopen _),
      AccessesThrough_of_store (hopen _), AccessesThrough_of_store (hopen _), AccessesThrough_of_store (hopen _),
      AccessesThrough_of_store (hopen _)⟩

/-- Settles O37: each atomic is a load-reserved, a store-conditional or an AMO with its own operation. -/
theorem atomicAccesses : Obligations.AtomicAccesses := by
  constructor
  · intro s rd rs1 rs2 aq rl hal a amo
    have hamo {i : Instr} {op : BitVec 32 → BitVec 32 → BitVec 32} (h : exec i s = Machine.amo 4 op rd rs1 rs2 s) :
        amo i op := AccessesThrough_of_amo (.inl rfl) h hal
    exact ⟨AccessesThrough_of_loadReserved rfl hal, AccessesThrough_of_storeConditional rfl hal, hamo (op := amoSwap) rfl,
      hamo (op := amoAdd) rfl, hamo (op := amoXor) rfl, hamo (op := amoAnd) rfl, hamo (op := amoOr) rfl,
      hamo (op := amoMin) rfl, hamo (op := amoMax) rfl, hamo (op := amoMinu) rfl, hamo (op := amoMaxu) rfl⟩
  · intro s rd rs1 rs2 aq rl hal a amo
    have hamo {i : Instr} {op : Word → Word → Word} (h : exec i s = Machine.amo 8 op rd rs1 rs2 s) :
        amo i op := AccessesThrough_of_amoDouble h hal
    exact ⟨AccessesThrough_of_loadReservedDouble rfl hal, AccessesThrough_of_storeConditional rfl hal,
      hamo (op := amoSwap) rfl, hamo (op := amoAdd) rfl, hamo (op := amoXor) rfl, hamo (op := amoAnd) rfl,
      hamo (op := amoOr) rfl, hamo (op := amoMin) rfl, hamo (op := amoMax) rfl, hamo (op := amoMinu) rfl,
      hamo (op := amoMaxu) rfl⟩

end Sys2Proof.Machine
end

section
/-! Accesses that fault, and accesses to devices: the page faults of a fetch (R126, R200, R632, R633), the accesses that no range
answers (R131), and those that a device window does (R109, R667). -/

namespace Sys2Proof.Machine

/-! ### Fetching (R200) -/

section
variable {s s1 s2 s3 : State} {va pa lo v : Word} {e : Exc} {kind : Access}

theorem Post_of_ok {α : Type} {P : State → Prop} {r : Res α} {a : α} {t : State} (hr : r.Post P) (h : r = .ok a t) : P t := by
  rw [h] at hr
  exact hr

/-- A translation that raises does so with the page fault of its kind and the address. -/
theorem translate_eq_raise (h : translate va kind s = .raise e v s1) :
    e = kind.pageFault ∧ v = va ∧ MmuStep s s1 := by
  have hraises := translate_raises va kind s
  have hpost := translate_post va kind s
  rw [h] at hraises hpost
  obtain ⟨he, hv⟩ := hraises
  exact ⟨he, hv, hpost⟩

theorem fetchParcel_of_translate (h : translate va .fetch s = .ok pa s1) :
    fetchParcel va s = (busRead pa 2 s1).bind fun v s2 => .ok (v.setWidth 32) s2 := by
  rw [fetchParcel, h, bind_ok]

/-- A parcel whose lowest two bits are set is the first of a 4-byte instruction (R187). -/
theorem wordLength_setWidth (h : lo &&& 3 = 3) : wordLength (lo.setWidth 32) = 4 := by
  have hlow : lo.setWidth 32 &&& 3 = 3 := by
    have := congrArg (BitVec.setWidth 32) h
    rwa [BitVec.setWidth_and] at this
  rw [wordLength, hlow]
  rfl

/-- After a first parcel of a 4-byte instruction the fetch goes on with the second. -/
theorem fetch_second (ht : translate s.hart.pc .fetch s = .ok pa s1) (hb : busRead pa 2 s1 = .ok lo s2)
    (h4 : lo &&& 3 = 3) : fetch s = (fetchParcel (s.hart.pc + 2) s2).bind fun hi s3 =>
      .ok (joinParcels (lo.setWidth 32) hi, 4) s3 := by
  rw [fetch, fetchParcel_of_translate ht, hb, bind_ok, bind_ok, wordLength_setWidth h4]
  rfl

/-- A fetch that faults takes the instruction's page fault, with the pc of the instruction saved (R632, R633). -/
theorem fetch_raises (hf : fetch s = .raise .instructionPageFault v s1) (hm : MmuStep s s1) :
    s1.hart.pc = s.hart.pc ∧ fetch s = .raise .instructionPageFault v s1 ∧
    runInstruction s = raiseExc .instructionPageFault v s1 ∧
    (HandlerInstalled 12 s.hart → ∃ t, runInstruction s = .next t ∧ TakesException 12 v s1 t) := by
  obtain ⟨-, -, hpc, hpriv, -, -, hcsr, -⟩ := MmuStep_fields hm
  have hrun : runInstruction s = raiseExc .instructionPageFault v s1 := by rw [runInstruction, hf, run_raise]
  refine ⟨hpc, hf, hrun, fun hi => ?_⟩
  rw [hrun]
  refine raiseExc_takesException (e := .instructionPageFault) ?_ v
  rw [HandlerInstalled, Delegated, hpriv, hcsr]
  exact hi

end

/-- Settles O38: each parcel is translated by itself, and translation raises only the page fault of its address. -/
theorem instructionPageFaults : Obligations.InstructionPageFaults := by
  intro s s1 e v
  refine ⟨fun h => ?_, fun pa lo s2 s3 ht hb h4 h => ?_⟩
  · obtain ⟨rfl, rfl, hm⟩ := translate_eq_raise h
    exact ⟨rfl, rfl, fetch_raises (by rw [fetch, fetchParcel, h]; rfl) hm⟩
  · obtain ⟨rfl, rfl, hm⟩ := translate_eq_raise h
    have hm12 := MmuStep_trans (Post_of_ok (translate_post _ _ _) ht) (Post_of_ok (busRead_post _ _ _) hb)
    exact ⟨rfl, rfl, fetch_raises (by rw [fetch_second ht hb h4, fetchParcel, h]; rfl) (MmuStep_trans hm12 hm)⟩

/-! ### Accesses that no range answers (R131) -/

section
variable {s : State} {a : Word} {n : Nat} (hb : busRange s.cfg.busMap a n = none)
include hb

/-- The data accessors fault where the translated address is not answered. -/
theorem memRead_unanswered {va : Word} {s1 : State} (hc : Untranslated s ∨ va.toNat % 4096 + n ≤ 4096)
    (ht : translate va .read s = .ok a s1) : memRead va n s = .fault .busFault := by
  rw [memRead, dataAddress_of_translate ht hc, bind_ok, busRead_unanswered (translate_cfg ht ▸ hb)]

theorem memWrite_unanswered {va : Word} {s1 : State} (hc : Untranslated s ∨ va.toNat % 4096 + n ≤ 4096)
    (ht : translate va .write s = .ok a s1) (v : Word) : memWrite va n v s = .fault .busFault := by
  rw [memWrite, dataAddress_of_translate ht hc, bind_ok, busWrite_unanswered v (translate_cfg ht ▸ hb)]

end

theorem fetchParcel_unanswered {s s1 : State} {va a : Word} (hb : busRange s.cfg.busMap a 2 = none)
    (ht : translate va .fetch s = .ok a s1) : fetchParcel va s = .fault .busFault := by
  rw [fetchParcel_of_translate ht, busRead_unanswered (translate_cfg ht ▸ hb), bind_fault]

theorem MmuStep_cfg {s t : State} (h : MmuStep s t) : t.cfg = s.cfg := by
  rw [h.1]

/-- Settles O26: no range answers, so the bus faults, and every access ends in its bus access. -/
theorem unansweredAccessIsBusFault : Obligations.UnansweredAccessIsBusFault := by
  intro s a n h
  have hb := busRange_unanswered h
  refine ⟨busRead_unanswered hb, fun v => busWrite_unanswered v hb, ?_, fun va s1 hc => ?_, ?_, fun ht => ?_, fun hf => ?_, ?_⟩
  · rintro rfl
    refine ⟨?_, fun e va kind he hallowed hdue => ?_⟩
    · rintro va tbl kind asid i rfl
      rw [descend, busRead_unanswered hb, bind_fault]
    · have htouch : touch e va kind s = .fault .busFault := by
        rw [touch_due hallowed hdue, he, busWrite_unanswered _ hb, bind_fault]
      exact ⟨htouch, fun levels asid root hit => by rw [walk_hit hit, htouch, bind_fault]⟩
  · exact ⟨memRead_unanswered hb hc, fun ht => memWrite_unanswered hb hc ht⟩
  · rintro rfl
    refine ⟨fun s1 ht => by rw [fetch, fetchParcel_unanswered hb ht, bind_fault], fun pa lo s1 s2 s3 ht hr h4 ht' => ?_⟩
    have hcfg : s2.cfg = s.cfg :=
      MmuStep_cfg (MmuStep_trans (Post_of_ok (translate_post _ _ _) ht) (Post_of_ok (busRead_post _ _ _) hr))
    rw [fetch_second ht hr h4, fetchParcel_unanswered (hcfg ▸ hb) ht', bind_fault]
  · rw [fetch, fetchParcel, ht]
    rfl
  · rw [runInstruction, hf, run_fault]
  · intro i va rd rs1 rs2 imm p q u7 u8 u9 aq rl
    dsimp only
    refine ⟨fun hi => ?_, fun hi => ?_, fun hfp => ⟨fun hi => ?_, fun hi => ?_⟩, fun hal => ⟨fun hi => ?_, fun hi => ?_⟩⟩
    · fin_cases hi <;> exact BusFaults_of_load rfl hb
    · fin_cases hi <;> exact BusFaults_of_store rfl hb
    · fin_cases hi <;> exact BusFaults_of_loadF (fpGate_implemented hfp _) hb
    · fin_cases hi <;> exact BusFaults_of_store (fpGate_implemented hfp _) hb
    · fin_cases hi <;> exact BusFaults_of_loadReserved rfl hal hb
    · fin_cases hi
      pick_goal 11
      · exact BusFaults_of_storeConditional rfl hal hb
      · exact BusFaults_of_storeConditional rfl hal hb
      all_goals exact BusFaults_of_amo rfl hal hb

/-! ### Accesses of a device window (R109, R667) -/

section
variable {i : Instr} {s : State} {len n : Nat} {extend : Word → Word} {rd : BitVec 5} {ea v : Word}

theorem load_of_deviceAt (h : exec i s = load len n extend rd ea s) (hu : Untranslated s) (hd : DeviceAt s ea n) :
    ∃ w t, exec i s = .next t ∧ t.mem = s.mem ∧ t.busLog = ⟨false, ea, n, w⟩ :: s.busLog := by
  have hrun : exec i s = .next (((s.nextDraw.withBusLog (⟨false, ea, n, lowBytes n s.draw⟩ :: s.busLog)).writeX rd
      (extend (lowBytes n s.draw))).retire len) := by
    rw [h, load, memRead, dataAddress_untranslated hu, bind_ok, busRead_of_deviceAt hd, run_ok, finish]
  exact ⟨_, _, hrun, writeX_mem _ _ _, writeX_busLog _ _ _⟩

theorem store_of_deviceAt (h : exec i s = store len n v ea s) (hn : n ≤ 8) (hu : Untranslated s) (hd : DeviceAt s ea n) :
    ∃ w t, exec i s = .next t ∧ t.mem = s.mem ∧ t.busLog = ⟨true, ea, n, w⟩ :: s.busLog ∧
      w.toNat = v.toNat % 2 ^ (8 * n) := by
  have hrun : exec i s = .next ((s.withBusLog (⟨true, ea, n, lowBytes n v⟩ :: s.busLog)).retire len) := by
    rw [h, store, memWrite, dataAddress_untranslated hu, bind_ok, busWrite_of_deviceAt _ hd, run_ok, finish]
  exact ⟨_, _, hrun, rfl, rfl, lowBytes_toNat hn v⟩

end

theorem lowBytes_eight (v : Word) : lowBytes 8 v = v := by
  rw [lowBytes, zextBytes, zext, BitVec.setWidth_eq, BitVec.setWidth_eq]

/-- An AMO of a doubleword reads the device, then writes it. -/
theorem amoDouble_of_deviceAt {i : Instr} {s : State} {op : Word → Word → Word} {rd rs1 rs2 : BitVec 5}
    (h : exec i s = amo 8 op rd rs1 rs2 s) (hu : Untranslated s) (hd : DeviceAt s (s.readX rs1) 8)
    (hal : (s.readX rs1).toNat % 8 = 0) :
    ∃ old t, exec i s = .next t ∧ t.mem = s.mem ∧
      t.busLog = ⟨true, s.readX rs1, 8, op old (s.readX rs2)⟩ :: ⟨false, s.readX rs1, 8, old⟩ :: s.busLog ∧
      t.readX rd = (if rd = 0 then 0 else old) := by
  have hrun : exec i s = .next (((s.nextDraw.withBusLog (⟨true, s.readX rs1, 8, op s.draw (s.readX rs2)⟩ ::
      ⟨false, s.readX rs1, 8, s.draw⟩ :: s.busLog)).writeX rd s.draw).retire s.len.bytes) := by
    rw [h, amo, if_pos (by simp [alignedTo, hal]), translate_untranslated hu, run_ok, busRead_of_deviceAt hd, run_ok,
      busWrite_of_deviceAt _ (by exact hd), run_ok, finish]
    simp only [lowBytes_eight, sextBytes_eight, zext, BitVec.setWidth_eq]
    rfl
  refine ⟨_, _, hrun, writeX_mem _ _ _, writeX_busLog _ _ _, ?_⟩
  rw [readX_retire, readX_writeX_same]

/-- Settles O27: a device window's access is its log entry, and each instruction makes one, an AMO two. -/
theorem deviceAccessesAreLogged : Obligations.DeviceAccessesAreLogged := by
  refine ⟨fun s pa n hn hd => ?_, fun s i n rd rs1 rs2 imm aq rl hu => ?_⟩
  · have hn8 : n ≤ 8 := by
      simp only [List.mem_cons, List.not_mem_nil, or_false] at hn
      omega
    refine ⟨⟨_, busRead_of_deviceAt hd, ?_⟩, fun v => ⟨_, busWrite_of_deviceAt v hd, lowBytes_toNat hn8 v⟩⟩
    rw [lowBytes_toNat hn8]
    exact Nat.mod_lt _ (by positivity)
  · dsimp only
    refine ⟨fun hd => ⟨fun hi => ?_, fun hi => ?_⟩, fun hd hal => amoDouble_of_deviceAt rfl hu hd hal⟩
    · fin_cases hi <;> exact load_of_deviceAt rfl hu hd
    · fin_cases hi <;> exact store_of_deviceAt rfl (by decide) hu hd

end Sys2Proof.Machine
end

section
/-! Encoding and decoding (R182 to R186): a value written into an operand's segments is read back, the operands of a row lie
apart from each other and from its fixed bits, and so the decoder gives back every well-formed instruction from its word. -/

namespace Sys2Proof

/-! ### Operands, bit by bit (R183, R186) -/

theorem getLsbD_ones (n i : Nat) : (ones n).getLsbD i = (decide (i < 32) && decide (i < n)) := by
  rw [ones, BitVec.getLsbD_ofNat, Nat.testBit_two_pow_sub_one]

/-- The bits of a word that a segment reads. -/
theorem getLsbD_segment (s : Segment) (j : Nat) :
    (ones s.size <<< s.lo).getLsbD j = true ↔ j < 32 ∧ s.lo ≤ j ∧ j ≤ s.hi := by
  simp only [BitVec.getLsbD_shiftLeft, getLsbD_ones, Segment.size, Bool.and_eq_true, Bool.not_eq_true', decide_eq_true_eq,
    decide_eq_false_iff_not]
  omega

/-- Writing a segment puts the bits of the value at its place in the word, and keeps the others. -/
theorem getLsbD_put (s : Segment) (v w : Insn) (j : Nat) :
    (s.put v w).getLsbD j =
      if (ones s.size <<< s.lo).getLsbD j = true then v.getLsbD (s.shift + (j - s.lo)) else w.getLsbD j := by
  by_cases hlt : j < 32
  · have hmask : (ones s.size <<< s.lo).getLsbD j = (!decide (j < s.lo) && (ones s.size).getLsbD (j - s.lo)) := by
      rw [BitVec.getLsbD_shiftLeft, decide_eq_true hlt, Bool.true_and]
    rw [Segment.put, BitVec.getLsbD_or, BitVec.getLsbD_and, BitVec.getLsbD_not, hmask, BitVec.getLsbD_shiftLeft,
      BitVec.getLsbD_and, BitVec.getLsbD_ushiftRight, decide_eq_true hlt]
    cases decide (j < s.lo) <;> cases (ones s.size).getLsbD (j - s.lo) <;> simp
  · have hge : 32 ≤ j := by omega
    simp [BitVec.getLsbD_of_ge _ _ hge]

/-- Writing segments keeps the bits outside all of them. -/
theorem getLsbD_foldl_put_outside {ss : List Segment} {v : Insn} {j : Nat}
    (h : ∀ s ∈ ss, ¬(ones s.size <<< s.lo).getLsbD j = true) :
    ∀ w : Insn, (ss.foldl (fun w s => s.put v w) w).getLsbD j = w.getLsbD j := by
  induction ss with
  | nil => intro w; rfl
  | cons s ss ih =>
    intro w
    rw [List.foldl_cons, ih fun t ht => h t (List.mem_cons_of_mem s ht), getLsbD_put, if_neg (h s List.mem_cons_self)]

/-- Of segments that lie apart, each holds its own bits of the value after all are written. -/
theorem getLsbD_foldl_put_inside {ss : List Segment} {v : Insn} {j : Nat} {s : Segment}
    (hapart : ss.Pairwise fun a b => a.hi < b.lo ∨ b.hi < a.lo) (hs : s ∈ ss)
    (hj : (ones s.size <<< s.lo).getLsbD j = true) :
    ∀ w : Insn, (ss.foldl (fun w s => s.put v w) w).getLsbD j = v.getLsbD (s.shift + (j - s.lo)) := by
  induction ss with
  | nil => cases hs
  | cons t ss ih =>
    intro w
    obtain ⟨ht, hss⟩ := List.pairwise_cons.mp hapart
    rw [List.foldl_cons]
    rcases List.mem_cons.mp hs with rfl | hs
    · rw [getLsbD_foldl_put_outside (fun u hu => ?_), getLsbD_put, if_pos hj]
      have := ht u hu
      rw [getLsbD_segment] at hj ⊢
      omega
    · exact ih hss hs _

theorem getLsbD_span (o : Operand) (j : Nat) :
    o.span.getLsbD j = true ↔ ∃ s ∈ o.segments, (ones s.size <<< s.lo).getLsbD j = true := by
  rw [Operand.span, getLsbD_foldl_or, List.any_eq_true]

/-- Writing an operand keeps the bits outside its span. -/
theorem getLsbD_encode_outside {o : Operand} {j : Nat} (h : o.span.getLsbD j = false) (v w : Insn) :
    (o.encode v w).getLsbD j = w.getLsbD j := by
  refine getLsbD_foldl_put_outside (fun s hs hbit => ?_) w
  rw [(getLsbD_span o j).mpr ⟨s, hs, hbit⟩] at h
  cases h

/-- A value that an operand can have, written into segments that lie apart, is read back (R186). -/
theorem decode_encode {o : Operand} {v : Insn} (hapart : Machine.SegmentsApart o) (hin : ∀ s ∈ o.segments, s.hi < 32)
    (hv : v &&& ~~~o.cover = 0) (w : Insn) : o.decode (o.encode v w) = v := by
  have hbit (s) (hs : s ∈ o.segments) (i) (hsi : s.shift ≤ i ∧ (ones s.size).getLsbD (i - s.shift) = true) :
      (o.encode v w).getLsbD (s.lo + (i - s.shift)) = v.getLsbD i := by
    have hmask : (ones s.size <<< s.lo).getLsbD (s.lo + (i - s.shift)) = true := by
      have hhi := hin s hs
      have hsize := hsi.2
      rw [getLsbD_ones, Segment.size, Bool.and_eq_true, decide_eq_true_eq, decide_eq_true_eq] at hsize
      rw [getLsbD_segment]
      omega
    rw [Operand.encode, getLsbD_foldl_put_inside hapart hs hmask]
    congr 1
    omega
  refine BitVec.eq_of_getLsbD_eq fun i hi => Bool.eq_iff_iff.mpr ⟨fun h => ?_, fun h => ?_⟩
  · obtain ⟨s, hs, ⟨-, hsi⟩, hw⟩ := (getLsbD_decode o _ i).mp h
    rwa [hbit s hs i hsi] at hw
  · have hcover : o.cover.getLsbD i = true := by
      have := congrArg (BitVec.getLsbD · i) hv
      simpa [h, hi] using this
    rw [Operand.cover, getLsbD_foldl_or, List.any_eq_true] at hcover
    obtain ⟨s, hs, hsi⟩ := hcover
    simp only [BitVec.getLsbD_shiftLeft, Bool.and_eq_true, Bool.not_eq_true', decide_eq_true_eq,
      decide_eq_false_iff_not, Nat.not_lt] at hsi
    obtain ⟨⟨-, hshift⟩, hones⟩ := hsi
    exact (getLsbD_decode o _ i).mpr ⟨s, hs, ⟨hi, hshift, hones⟩, (hbit s hs i ⟨hshift, hones⟩).trans h⟩

/-! ### All operands of a definition -/

/-- The operand can have the value, and does not exclude it (R181, R183). -/
def Operand.Fits (o : Operand) (v : Insn) : Prop := v &&& ~~~o.cover = 0 ∧ o.admits v = true

theorem getLsbD_fillOperands_outside {j : Nat} {os : List Operand} (h : ∀ o ∈ os, o.span.getLsbD j = false) :
    ∀ (vs : List Insn) (w : Insn), (fillOperands os vs w).getLsbD j = w.getLsbD j := by
  induction os with
  | nil => intro vs w; rfl
  | cons o os ih =>
    intro vs w
    cases vs with
    | nil => rfl
    | cons v vs =>
      rw [fillOperands, ih fun p hp => h p (List.mem_cons_of_mem o hp), getLsbD_encode_outside (h o List.mem_cons_self)]

/-- Operands whose segments all lie apart read back the values written into them. -/
theorem decode_fillOperands {os : List Operand} {vs : List Insn} (hfits : List.Forall₂ Operand.Fits os vs)
    (hin : ∀ o ∈ os, ∀ s ∈ o.segments, s.hi < 32)
    (hapart : (os.flatMap fun o => o.segments).Pairwise fun a b => a.hi < b.lo ∨ b.hi < a.lo) :
    ∀ w, (os.map fun o => o.decode (fillOperands os vs w)) = vs := by
  induction hfits with
  | nil => intro w; rfl
  | @cons o v os vs hfit _ ih =>
    intro w
    rw [List.flatMap_cons, List.pairwise_append] at hapart
    obtain ⟨hown, hrest, hothers⟩ := hapart
    have hkept : o.decode (fillOperands os vs (o.encode v w)) = o.decode (o.encode v w) := by
      refine decode_congr o fun j hj => getLsbD_fillOperands_outside (fun p hp => ?_) vs _
      rw [← Bool.not_eq_true, getLsbD_span]
      rintro ⟨t, ht, htj⟩
      obtain ⟨s, hs, hsj⟩ := (getLsbD_span o j).mp hj
      have hst := hothers s hs t (List.mem_flatMap.mpr ⟨p, hp, ht⟩)
      rw [getLsbD_segment] at hsj htj
      omega
    rw [fillOperands, List.map_cons, hkept, decode_encode hown (hin o List.mem_cons_self) hfit.1]
    exact congrArg _ (ih (fun p hp => hin p (List.mem_cons_of_mem o hp)) hrest _)

/-! ### The default table (R182, R185) -/

theorem row_op (op : Op) : (row op).op = op := by
  cases op <;> rfl

theorem row_mem_table (op : Op) : row op ∈ table := by
  refine List.mem_map.mpr ⟨op, ?_, rfl⟩
  cases op <;> decide +kernel

/-- All segments of a row lie apart in the word. -/
theorem segments_apart_table : ∀ d ∈ table,
    (d.operands.flatMap fun o => o.segments).Pairwise fun a b => a.hi < b.lo ∨ b.hi < a.lo := by
  decide +kernel

/-- They lie in the word's own length. -/
theorem segments_in_length_table : ∀ d ∈ table, ∀ o ∈ d.operands, ∀ s ∈ o.segments, s.hi < 8 * d.length := by
  decide +kernel

/-- No operand of a row reads one of its fixed bits. -/
theorem span_and_mask_table : ∀ d ∈ table, ∀ o ∈ d.operands, o.span &&& d.mask = 0 := by decide +kernel

/-- What a row's length, mask and pattern have in common (R182, R187). -/
theorem row_wellFormed (op : Op) : ((row op).length = 2 ∨ (row op).length = 4) ∧ (row op).mask &&& 3 = 3 ∧
    wordLength (row op).bits = (row op).length ∧ (row op).bits &&& ~~~(row op).mask = 0 ∧
    (row op).mask >>> (8 * (row op).length) = 0 := by
  have h := (mem_accepts accepts_default (row_mem_table op)).1
  simp only [Definition.wellFormed, Bool.and_eq_true, Bool.or_eq_true, beq_iff_eq] at h
  obtain ⟨⟨⟨⟨⟨⟨hlen, hmask⟩, hword⟩, hbits⟩, hhigh⟩, -⟩, -⟩ := h
  exact ⟨hlen, hmask, hword, hbits, hhigh⟩

/-! ### Well-formed instructions have values their operands can have (R183, R196) -/

/-- The operand can have every value of `w` bits whose lowest `n` bits are 0. -/
abbrev Operand.Takes (o : Operand) (w n : Nat) : Prop := w ≤ 32 ∧ (ones w &&& ~~~ones n) &&& ~~~o.cover = 0

theorem getLsbD_of_lowZeros {w n i : Nat} {a : BitVec w} (h : lowZeros n a = true) (hi : i < n) : a.getLsbD i = false := by
  have hbit := congrArg (BitVec.getLsbD · i) (beq_iff_eq.mp h)
  simp only [BitVec.getLsbD_and, BitVec.getLsbD_ofNat, Nat.testBit_two_pow_sub_one, hi, decide_true, Bool.and_true] at hbit
  by_cases hw : i < w
  · simpa [hw] using hbit
  · exact BitVec.getLsbD_of_ge _ _ (by omega)

theorem Fits_setWidth {o : Operand} {w n : Nat} {a : BitVec w} (ht : o.Takes w n) (hz : lowZeros n a = true)
    (hx : a.toNat ∉ o.exclusions) : o.Fits (a.setWidth 32) := by
  obtain ⟨hw, hcover⟩ := ht
  constructor
  · refine BitVec.eq_of_getLsbD_eq fun i hi => ?_
    have hc := congrArg (BitVec.getLsbD · i) hcover
    simp only [BitVec.getLsbD_and, BitVec.getLsbD_not, getLsbD_ones, BitVec.getLsbD_setWidth, hi, decide_true,
      Bool.true_and] at hc ⊢
    cases ha : a.getLsbD i with
    | false => simp
    | true =>
      have hn : ¬i < n := fun hlt => by rw [getLsbD_of_lowZeros hz hlt] at ha; cases ha
      simpa [BitVec.lt_of_getLsbD ha, hn] using hc
  · rw [Operand.admits, BitVec.toNat_setWidth, Nat.mod_eq_of_lt (a.isLt.trans_le (Nat.pow_le_pow_right (by decide) hw))]
    simpa using hx

section
variable {o : Operand} {w n x : Nat} {a : BitVec w}

/-- An operand without an excluded value, of any multiple of `2 ^ n`. -/
theorem Fits_of_lowZeros (h : o.exclusions = [] ∧ o.Takes w n) (hz : lowZeros n a = true) : o.Fits (a.setWidth 32) := by
  obtain ⟨hx, ht⟩ := h
  exact Fits_setWidth ht hz (by simp [hx])

theorem lowZeros_zero (a : BitVec w) : lowZeros 0 a = true := by simp [lowZeros]

/-- An operand without an excluded value, of any value of its width. -/
theorem Fits_any (h : o.exclusions = [] ∧ o.Takes w 0) (a : BitVec w) : o.Fits (a.setWidth 32) :=
  Fits_of_lowZeros h (lowZeros_zero a)

/-- An operand with one excluded value. -/
theorem Fits_of_ne (h : o.exclusions = [x] ∧ o.Takes w n) (hz : lowZeros n a = true)
    (hne : (a != BitVec.ofNat w x) = true) : o.Fits (a.setWidth 32) := by
  obtain ⟨hx, ht⟩ := h
  refine Fits_setWidth ht hz ?_
  rw [hx, List.mem_singleton]
  rintro rfl
  simp at hne

end

/-- The instruction's operand values rebuild it, and its row's operands can have them. -/
def Instr.Representable (i : Instr) : Prop :=
  Instr.ofOperands i.op i.operands = some i ∧ List.Forall₂ Operand.Fits (row i.op).operands i.operands

open Laws.OperandsRebuild in
/-- The instructions by the number of their operands, and by what their encodings leave out of an operand's values. -/
theorem representable_of_wellFormed {i : Instr} (h : i.wellFormed = true) : i.Representable := by
  cases i with
  | ecall | ebreak | sret | mret | wfi | cEbreak | vectorOp | vectorLoadW8 | vectorLoadW16 | vectorLoadW32
  | vectorLoadW64 | vectorStoreW8 | vectorStoreW16 | vectorStoreW32 | vectorStoreW64 => exact ⟨rfl, .nil⟩
  | cboInval | cboClean | cboFlush | cboZero =>
    exact ⟨build1_back _ (by decide) _,
      .cons (Fits_any (by decide) _) .nil⟩
  | cJ =>
    exact ⟨build1_back _ (by decide) _,
      .cons (Fits_of_lowZeros (by decide) h) .nil⟩
  | cJr | cJalr =>
    exact ⟨build1_back _ (by decide) _,
      .cons (Fits_of_ne (x := 0) (by decide) (lowZeros_zero _) h) .nil⟩
  | cAddi16sp =>
    obtain ⟨hz, hne⟩ := Bool.and_eq_true_iff.mp h
    exact ⟨build1_back _ (by decide) _,
      .cons (Fits_of_ne (x := 0) (by decide) hz hne) .nil⟩
  | lui | auipc | jal | cBeqz | cBnez | cFldsp | cFsdsp | cSwsp | cSdsp =>
    exact ⟨build2_back _ (by decide) (by decide) _ _,
      .cons (Fits_any (by decide) _) (.cons (Fits_of_lowZeros (by decide) h) .nil)⟩
  | cAddi4spn =>
    obtain ⟨hz, hne⟩ := Bool.and_eq_true_iff.mp h
    exact ⟨build2_back _ (by decide) (by decide) _ _,
      .cons (Fits_any (by decide) _) (.cons (Fits_of_ne (x := 0) (by decide) hz hne) .nil)⟩
  | cMv | cAdd =>
    exact ⟨build2_back _ (by decide) (by decide) _ _,
      .cons (Fits_any (by decide) _) (.cons (Fits_of_ne (x := 0) (by decide) (lowZeros_zero _) h) .nil)⟩
  | cAddiw =>
    exact ⟨build2_back _ (by decide) (by decide) _ _,
      .cons (Fits_of_ne (x := 0) (by decide) (lowZeros_zero _) h) (.cons (Fits_any (by decide) _) .nil)⟩
  | cLwsp | cLdsp =>
    obtain ⟨hne, hz⟩ := Bool.and_eq_true_iff.mp h
    exact ⟨build2_back _ (by decide) (by decide) _ _,
      .cons (Fits_of_ne (x := 0) (by decide) (lowZeros_zero _) hne) (.cons (Fits_of_lowZeros (by decide) hz) .nil)⟩
  | cLui =>
    obtain ⟨h, hne⟩ := Bool.and_eq_true_iff.mp h
    obtain ⟨hrd, hz⟩ := Bool.and_eq_true_iff.mp h
    exact ⟨build2_back _ (by decide) (by decide) _ _,
      .cons (Fits_of_ne (x := 2) (by decide) (lowZeros_zero _) hrd) (.cons (Fits_of_ne (x := 0) (by decide) hz hne) .nil)⟩
  | sfenceVma | cAddi | cLi | cSrli | cSrai | cAndi | cSub | cXor | cOr | cAnd | cSubw | cAddw | cSlli | fmvXW | fmvWX
  | fmvXD | fmvDX | fclassS | fclassD | hfenceVvma | hfenceGvma | hlvB | hlvBu | hlvH | hlvHu | hlvxHu | hlvW | hlvWu
  | hlvxWu | hlvD | hsvB | hsvH | hsvW | hsvD =>
    exact ⟨build2_back _ (by decide) (by decide) _ _,
      .cons (Fits_any (by decide) _) (.cons (Fits_any (by decide) _) .nil)⟩
  | beq | bne | blt | bge | bltu | bgeu | cFld | cLw | cLd | cFsd | cSw | cSd =>
    exact ⟨build3_back _ (by decide) (by decide) (by decide) _ _ _,
      .cons (Fits_any (by decide) _) (.cons (Fits_any (by decide) _) (.cons (Fits_of_lowZeros (by decide) h) .nil))⟩
  | addi | slti | sltiu | xori | ori | andi | slli | srli | srai | add | sub | sll | slt | sltu | xor | srl | sra | or
  | and | addiw | slliw | srliw | sraiw | addw | subw | sllw | srlw | sraw | jalr | lb | lh | lw | ld | lbu | lhu
  | lwu | sb | sh | sw | sd | mul | mulh | mulhsu | mulhu | div | divu | rem | remu | mulw | divw | divuw | remw
  | remuw | csrrw | csrrs | csrrc | csrrwi | csrrsi | csrrci | fenceI | flw | fld | fsw | fsd | fsqrtS | fsgnjS
  | fsgnjnS | fsgnjxS | fminS | fmaxS | feqS | fltS | fleS | fcvtWS | fcvtWuS | fcvtLS | fcvtLuS | fcvtSW | fcvtSWu
  | fcvtSL | fcvtSLu | fsqrtD | fsgnjD | fsgnjnD | fsgnjxD | fminD | fmaxD | feqD | fltD | fleD | fcvtWD | fcvtWuD
  | fcvtLD | fcvtLuD | fcvtDW | fcvtDWu | fcvtDL | fcvtDLu | fcvtSD | fcvtDS =>
    exact ⟨build3_back _ (by decide) (by decide) (by decide) _ _ _,
      .cons (Fits_any (by decide) _) (.cons (Fits_any (by decide) _) (.cons (Fits_any (by decide) _) .nil))⟩
  | lrW | lrD | faddS | fsubS | fmulS | fdivS | faddD | fsubD | fmulD | fdivD =>
    exact ⟨build4_back _ (by decide) (by decide) (by decide) (by decide) _ _ _ _,
      .cons (Fits_any (by decide) _) (.cons (Fits_any (by decide) _)
        (.cons (Fits_any (by decide) _) (.cons (Fits_any (by decide) _) .nil)))⟩
  | scW | amoswapW | amoaddW | amoxorW | amoandW | amoorW | amominW | amomaxW | amominuW | amomaxuW | scD | amoswapD
  | amoaddD | amoxorD | amoandD | amoorD | amominD | amomaxD | amominuD | amomaxuD | fence | fmaddS | fmsubS | fnmsubS
  | fnmaddS | fmaddD | fmsubD | fnmsubD | fnmaddD =>
    exact ⟨build5_back _ (by decide) (by decide) (by decide) (by decide) (by decide) _ _ _ _ _,
      .cons (Fits_any (by decide) _) (.cons (Fits_any (by decide) _) (.cons (Fits_any (by decide) _)
        (.cons (Fits_any (by decide) _) (.cons (Fits_any (by decide) _) .nil))))⟩

/-! ### The word of an instruction (R182, R185, R187) -/

section
variable {i : Instr}

/-- The operands of an instruction's row read its values back from its word. -/
theorem operandValues_encode (h : i.Representable) : (row i.op).operandValues (encode i) = i.operands := by
  have hrow := row_mem_table i.op
  have hlen := (row_wellFormed i.op).1
  refine decode_fillOperands h.2 (fun o ho s hs => ?_) (segments_apart_table _ hrow) _
  have := segments_in_length_table _ hrow o ho s hs
  omega

/-- The word of an instruction has the fixed bits of its row. -/
theorem fixedMatch_encode (i : Instr) : (row i.op).fixedMatch (encode i) = true := by
  have hrow := row_mem_table i.op
  obtain ⟨-, -, -, hbits, -⟩ := row_wellFormed i.op
  refine (fixedMatch_iff _ _).mpr fun j => ?_
  cases hm : (row i.op).mask.getLsbD j with
  | true =>
    rw [Bool.and_true, encode]
    refine getLsbD_fillOperands_outside (fun o ho => ?_) _ _
    simpa [hm] using congrArg (BitVec.getLsbD · j) (span_and_mask_table _ hrow o ho)
  | false =>
    rw [Bool.and_false, eq_comm, ← Bool.not_eq_true]
    exact fun hj => by rw [bits_sub_mask hbits j hj] at hm; cases hm

/-- The word has no bit beyond its length. -/
theorem getLsbD_encode_of_length_le {j : Nat} (hj : 8 * i.length ≤ j) : (encode i).getLsbD j = false := by
  have hrow := row_mem_table i.op
  obtain ⟨-, -, -, hbits, hhigh⟩ := row_wellFormed i.op
  change 8 * (row i.op).length ≤ j at hj
  rw [encode, getLsbD_fillOperands_outside (fun o ho => ?_), ← Bool.not_eq_true]
  · intro hbit
    have hmask := congrArg (BitVec.getLsbD · (j - 8 * (row i.op).length)) hhigh
    rw [BitVec.getLsbD_ushiftRight, Nat.add_sub_cancel' hj, bits_sub_mask hbits j hbit] at hmask
    simp at hmask
  · rw [← Bool.not_eq_true, getLsbD_span]
    rintro ⟨s, hs, hsj⟩
    have hin := segments_in_length_table _ hrow o ho s hs
    rw [getLsbD_segment] at hsj
    omega

/-- The lowest two bits of the word announce its length (R187). -/
theorem wordLength_encode (i : Instr) : wordLength (encode i) = i.length := by
  obtain ⟨-, hmask, hlen, -, -⟩ := row_wellFormed i.op
  have hlow : encode i &&& 3 = (row i.op).bits &&& 3 := by
    rw [← beq_iff_eq.mp (fixedMatch_encode i), BitVec.and_assoc, hmask]
  rw [wordLength, hlow]
  exact hlen

/-- The row of a well-formed instruction matches its word. -/
theorem matchesWord_encode {mode : Priv} (h : i.Representable) (hmode : (row i.op).allows mode = true) :
    (row i.op).matchesWord mode i.length (encode i) = true := by
  have hadmits : ∀ o ∈ (row i.op).operands, o.admits (o.decode (encode i)) = true := by
    have hfits := h.2
    rw [← operandValues_encode h, Definition.operandValues, List.forall₂_map_right_iff, List.forall₂_same] at hfits
    exact fun o ho => (hfits o ho).2
  simp only [Definition.matchesWord, fixedMatch_encode, hmode, Bool.and_true, Bool.and_eq_true,
    List.all_eq_true]
  exact ⟨beq_iff_eq.mpr rfl, hadmits⟩

/-- The default table decodes the word of a well-formed instruction to it, in every mode that its row allows (R185). -/
theorem decodeIn_encode {mode : Priv} (h : i.wellFormed = true) (hmode : (row i.op).allows mode = true) :
    decodeIn table mode i.length (encode i) = .ok i := by
  have hrep := representable_of_wellFormed h
  have hfilter : (table.filter fun d => d.matchesWord mode i.length (encode i)) = [row i.op] := by
    have hmem : row i.op ∈ table.filter fun d => d.matchesWord mode i.length (encode i) :=
      List.mem_filter.mpr ⟨row_mem_table i.op, matchesWord_encode hrep hmode⟩
    obtain ⟨d, hd⟩ := List.length_eq_one_iff.mp (Nat.le_antisymm
      (((Machine.accepts_iff_matches table).mp accepts_default).2 mode i.length (encode i)) (List.length_pos_of_mem hmem))
    rw [hd, List.mem_singleton] at hmem
    rw [hd, hmem]
  rw [decodeIn, Registry.get, hfilter]
  simp only [row_op, handlerValues_row, operandValues_encode hrep, hrep.1]

end

end Sys2Proof
end

section
/-! Fetching an instruction's word from the bytes it lies in, and running it (R102, R200, R201, R203). -/

namespace Sys2Proof.Machine

section
variable {s : State} {va : Word} {w : Insn}

/-- Two bytes of memory are the parcel that a fetch reads from it. -/
theorem fetchParcel_of_bytes (hu : Untranslated s) (hr : RamAt s va 2)
    (hbytes : ∀ k, k < 2 → s.readByte (va.toNat + k) = (w >>> (8 * k)).setWidth 8) :
    fetchParcel va s = .ok ((w.setWidth 16).setWidth 32) s := by
  have h0 : Memory.read s.mem va.toNat = w.setWidth 8 := hbytes 0 (by decide)
  have h1 : Memory.read s.mem (va.toNat + 1) = (w >>> 8).setWidth 8 := hbytes 1 (by decide)
  have hvalue : (Memory.readLE s.mem va.toNat 2).setWidth 32 = (w.setWidth 16).setWidth 32 := by
    refine BitVec.eq_of_toNat_eq ?_
    rw [BitVec.toNat_setWidth, Memory_readLE_toNat s.mem 2 _ (by decide), show List.range 2 = [0, 1] from rfl]
    simp only [List.map_cons, List.map_nil, List.sum_cons, List.sum_nil, Nat.add_zero, h0, h1, BitVec.toNat_setWidth,
      BitVec.toNat_ushiftRight, Nat.shiftRight_eq_div_pow]
    omega
  rw [fetchParcel, translate_untranslated hu, bind_ok, busRead_of_ramAt hr, bind_ok, hvalue]

/-- The first parcel has the length of the word. -/
theorem wordLength_parcel (w : Insn) : wordLength ((w.setWidth 16).setWidth 32) = wordLength w := by
  have hlow : (w.setWidth 16).setWidth 32 &&& 3 = w &&& 3 := by
    refine BitVec.eq_of_toNat_eq ?_
    rw [BitVec.toNat_and, BitVec.toNat_and, show (3 : Insn).toNat = 2 ^ 2 - 1 from rfl, Nat.and_two_pow_sub_one_eq_mod,
      Nat.and_two_pow_sub_one_eq_mod, BitVec.toNat_setWidth, BitVec.toNat_setWidth]
    omega
  rw [wordLength, hlow]
  rfl

theorem joinParcels_parcels (w : Insn) :
    joinParcels ((w.setWidth 16).setWidth 32) (((w >>> 16).setWidth 16).setWidth 32) = w := by
  have hlo : w.toNat % 2 ^ 16 % 2 ^ 32 < 2 ^ 16 := by omega
  refine BitVec.eq_of_toNat_eq ?_
  simp only [joinParcels, BitVec.toNat_or, BitVec.toNat_shiftLeft, BitVec.toNat_setWidth, BitVec.toNat_ushiftRight,
    Nat.shiftRight_eq_div_pow]
  rw [Nat.mod_eq_of_lt (a := _ <<< _) (by rw [Nat.shiftLeft_eq]; omega), Nat.or_comm, ← Nat.shiftLeft_add_eq_or_of_lt hlo,
    Nat.shiftLeft_eq]
  omega

/-- A fetch reads a word of either length that its bytes are, with no bit beyond that length (R200). -/
theorem fetch_of_bytes (hu : Untranslated s) (hr : RamAt s s.hart.pc 2)
    (hbytes : ∀ k, k < 2 → s.readByte (s.hart.pc.toNat + k) = (w >>> (8 * k)).setWidth 8)
    (hshort : wordLength w = 2 → (w.setWidth 16).setWidth 32 = w)
    (hlong : wordLength w = 4 → RamAt s (s.hart.pc + 2) 2 ∧
      ∀ k, k < 2 → s.readByte ((s.hart.pc + 2).toNat + k) = (w >>> (16 + 8 * k)).setWidth 8) :
    fetch s = .ok (w, wordLength w) s := by
  rw [fetch, fetchParcel_of_bytes hu hr hbytes, bind_ok, wordLength_parcel]
  by_cases h2 : wordLength w = 2
  · rw [if_pos h2, hshort h2, h2]
  · have h4 : wordLength w = 4 := by
      unfold wordLength at h2 ⊢
      split_ifs at h2 ⊢ with hlow
      · rfl
      · exact absurd rfl h2
    obtain ⟨hr2, hb2⟩ := hlong h4
    have hsecond := fetchParcel_of_bytes (w := w >>> 16) hu hr2 fun k hk => by
      rw [hb2 k hk, BitVec.shiftRight_add]
    rw [if_neg h2, hsecond, bind_ok, joinParcels_parcels, h4]

end

/-- Settles O10: the fetch reads the instruction's word, and the default table decodes it. -/
theorem stepRunsInstructionInMemory : Obligations.StepRunsInstructionInMemory := by
  intro s i horder htable hsched htlb hpend hawake hwf hmode hu hr hr2 hbytes hbytes2
  have hlen := wordLength_encode i
  have hfetch : fetch s = .ok (encode i, i.length) s := by
    rw [← hlen]
    refine fetch_of_bytes hu hr hbytes (fun h2 => ?_) fun h4 => ⟨hr2 (hlen ▸ h4), hbytes2 (hlen ▸ h4)⟩
    refine BitVec.eq_of_getLsbD_eq fun j hj => ?_
    rw [BitVec.getLsbD_setWidth, BitVec.getLsbD_setWidth, decide_eq_true hj, Bool.true_and]
    by_cases hj16 : j < 16
    · rw [decide_eq_true hj16, Bool.true_and]
    · rw [getLsbD_encode_of_length_le (by omega), Bool.and_false]
  refine ⟨.ofBytes i.length, bytes_ofBytes (row_wellFormed i.op).1, ?_⟩
  rw [step_little horder, environment_idle hsched, dropTlb_idle htlb, runHart_awake (interruptCheck_none hpend) hawake,
    runInstruction, hfetch, run_ok]
  exact runWord_ok (by rw [htable]; exact decodeIn_encode hwf hmode)

end Sys2Proof.Machine
end

section
/-! The bytes of an instruction (R102, R182, R187), and the decoder's round trips over them. -/

namespace Sys2Proof

/-! ### The bytes of a word (R102) -/

/-- Two bytes of a word are its parcel. -/
theorem parcel_bytes (w : Insn) : parcel (w.setWidth 8) ((w >>> 8).setWidth 8) = (w.setWidth 16).setWidth 32 := by
  refine BitVec.eq_of_getLsbD_eq fun j hj => ?_
  simp only [parcel, BitVec.getLsbD_or, BitVec.getLsbD_setWidth, BitVec.getLsbD_shiftLeft, BitVec.getLsbD_ushiftRight, hj,
    decide_true, Bool.true_and]
  by_cases h8 : j < 8
  · have h16 : j < 16 := by omega
    simp [h8, h16]
  · rw [Nat.add_sub_cancel' (Nat.not_lt.mp h8), show decide (j - 8 < 8) = decide (j < 16) from decide_eq_decide.mpr (by omega)]
    simp [h8, show j - 8 < 32 by omega]

section
variable {i : Instr} {mode : Priv}

/-- The word of a 16-bit instruction is its parcel. -/
theorem encode_parcel (h : i.length = 2) : ((encode i).setWidth 16).setWidth 32 = encode i := by
  refine BitVec.eq_of_getLsbD_eq fun j hj => ?_
  rw [BitVec.getLsbD_setWidth, BitVec.getLsbD_setWidth, decide_eq_true hj, Bool.true_and]
  by_cases h16 : j < 16
  · rw [decide_eq_true h16, Bool.true_and]
  · rw [getLsbD_encode_of_length_le (by omega), Bool.and_false]

/-- The bytes of an instruction decode as its word does, whatever bytes follow. -/
theorem decodeBytes_encodeBytes (h : decodeWord mode i.length (encode i) = .ok i) (rest : List Byte) :
    decodeBytes mode (encodeBytes i ++ rest) = .ok (i, rest) := by
  have hword := wordLength_encode i
  have hhigh : encode i >>> 8 >>> 8 = encode i >>> 16 := (BitVec.shiftRight_add (encode i) 8 8).symm
  have hlength : i.length = 2 ∨ i.length = 4 := (row_wellFormed i.op).1
  rcases hlength with hlen | hlen <;> rw [hlen] at h hword
  · simp only [encodeBytes, hlen, wordBytes, List.cons_append, List.nil_append, decodeBytes, parcel_bytes,
      encode_parcel hlen, hword, beq_self_eq_true, if_true, h]
  · simp only [encodeBytes, hlen, wordBytes, List.cons_append, List.nil_append, decodeBytes, parcel_bytes,
      Machine.wordLength_parcel, hword, hhigh, Machine.joinParcels_parcels, h,
      Nat.reduceBEq, Bool.false_eq_true, if_false]

end

/-- Settles O1: the row of an instruction is the only one that matches its word and reads its operands back, and its bytes are
the word's parcels. -/
theorem decodeEncodeRoundTrip : Obligations.DecodeEncodeRoundTrip := by
  intro i mode hwf hmode
  have hword : decodeWord mode i.length (encode i) = .ok i := decodeIn_encode hwf hmode
  exact ⟨hword, decodeBytes_encodeBytes hword⟩

end Sys2Proof
end

section
/-! What the decoder answers is well formed, and is encoded by its word where the definition leaves no bit free (R182 to R187,
R196). -/

namespace Sys2Proof

/-! ### The instruction that operand values build (R183, R193) -/

/-- The values of the operand have at most `w` bits. -/
abbrev Operand.Within (o : Operand) (w : Nat) : Prop := o.cover &&& ~~~ones w = 0

theorem setWidth_of_fits {o : Operand} {w : Nat} {v : Insn} (hw : o.Within w) (hv : o.Fits v) :
    (v.setWidth w).setWidth 32 = v := by
  refine BitVec.eq_of_getLsbD_eq fun i hi => ?_
  have hcover := congrArg (BitVec.getLsbD · i) hv.1
  have hwidth := congrArg (BitVec.getLsbD · i) hw
  simp only [BitVec.getLsbD_and, BitVec.getLsbD_not, getLsbD_ones, BitVec.getLsbD_setWidth, hi, decide_true,
    Bool.true_and] at hcover hwidth ⊢
  by_cases hiw : i < w
  · simp [hiw]
  · have hnot : o.cover.getLsbD i = false := by simpa [hiw] using hwidth
    simpa [hiw, hnot] using hcover

theorem cons_fits {o : Operand} {w : Nat} {v : Insn} {vs vs' : List Insn} (hv : o.Fits v) (hw : o.Within w) (h : vs' = vs) :
    (v.setWidth w).setWidth 32 :: vs' = v :: vs := by
  rw [setWidth_of_fits hw hv, h]

/-- The instruction built from values that its row's operands can have has its row's identifier and those values: the
identifiers by the number of their operands, three for those not named. -/
theorem op_operands_of_ofOperands {op : Op} {vs : List Insn} {i : Instr} (h : Instr.ofOperands op vs = some i)
    (hf : List.Forall₂ Operand.Fits (row op).operands vs) : i.op = op ∧ i.operands = vs := by
  cases op with
  | ecall | ebreak | sret | mret | wfi | cEbreak | vectorOp | vectorLoadW8 | vectorLoadW16 | vectorLoadW32
  | vectorLoadW64 | vectorStoreW8 | vectorStoreW16 | vectorStoreW32 | vectorStoreW64 =>
    obtain _ | _ := hf
    cases h
    exact ⟨rfl, rfl⟩
  | cAddi16sp | cJ | cJr | cJalr | cboInval | cboClean | cboFlush | cboZero =>
    obtain _ | ⟨ha, _ | _⟩ := hf
    cases h
    exact ⟨rfl, cons_fits ha (by decide) rfl⟩
  | lui | auipc | jal | sfenceVma | cAddi4spn | cAddi | cAddiw | cLi | cLui | cSrli | cSrai | cAndi | cSub | cXor | cOr
  | cAnd | cSubw | cAddw | cBeqz | cBnez | cSlli | cFldsp | cLwsp | cLdsp | cMv | cAdd | cFsdsp | cSwsp | cSdsp | fmvXW
  | fmvWX | fmvXD | fmvDX | fclassS | fclassD | hfenceVvma | hfenceGvma | hlvB | hlvBu | hlvH | hlvHu | hlvxHu | hlvW
  | hlvWu | hlvxWu | hlvD | hsvB | hsvH | hsvW | hsvD =>
    obtain _ | ⟨ha, _ | ⟨hb, _ | _⟩⟩ := hf
    cases h
    exact ⟨rfl, cons_fits ha (by decide) (cons_fits hb (by decide) rfl)⟩
  | lrW | lrD | faddS | fsubS | fmulS | fdivS | faddD | fsubD | fmulD | fdivD =>
    obtain _ | ⟨ha, _ | ⟨hb, _ | ⟨hc, _ | ⟨hd, _ | _⟩⟩⟩⟩ := hf
    cases h
    exact ⟨rfl, cons_fits ha (by decide) (cons_fits hb (by decide)
      (cons_fits hc (by decide) (cons_fits hd (by decide) rfl)))⟩
  | scW | amoswapW | amoaddW | amoxorW | amoandW | amoorW | amominW | amomaxW | amominuW | amomaxuW | scD | amoswapD
  | amoaddD | amoxorD | amoandD | amoorD | amominD | amomaxD | amominuD | amomaxuD | fence | fmaddS | fmsubS | fnmsubS
  | fnmaddS | fmaddD | fmsubD | fnmsubD | fnmaddD =>
    obtain _ | ⟨ha, _ | ⟨hb, _ | ⟨hc, _ | ⟨hd, _ | ⟨he, _ | _⟩⟩⟩⟩⟩ := hf
    cases h
    exact ⟨rfl, cons_fits ha (by decide) (cons_fits hb (by decide)
      (cons_fits hc (by decide) (cons_fits hd (by decide) (cons_fits he (by decide) rfl))))⟩
  | _ =>
    obtain _ | ⟨ha, _ | ⟨hb, _ | ⟨hc, _ | _⟩⟩⟩ := hf
    cases h
    exact ⟨rfl, cons_fits ha (by decide) (cons_fits hb (by decide) (cons_fits hc (by decide) rfl))⟩

/-! ### Values that operands can have make a well-formed instruction (R181, R183, R196) -/

section
variable {o : Operand} {w n x : Nat} {a : BitVec w}

/-- The operand's values have `n` bits that are 0. -/
theorem lowZeros_of_fits (h : o.Fits (a.setWidth 32)) (ho : w ≤ 32 ∧ o.cover &&& ones n = 0) : lowZeros n a = true := by
  obtain ⟨hw, hlow⟩ := ho
  refine beq_iff_eq.mpr (BitVec.eq_of_getLsbD_eq fun i hi => ?_)
  have hi32 : i < 32 := hi.trans_le hw
  have hcover := congrArg (BitVec.getLsbD · i) h.1
  have hzero := congrArg (BitVec.getLsbD · i) hlow
  simp only [BitVec.getLsbD_and, BitVec.getLsbD_not, BitVec.getLsbD_setWidth, getLsbD_ones, BitVec.getLsbD_ofNat,
    Nat.testBit_two_pow_sub_one, hi, hi32, decide_true, Bool.true_and] at hcover hzero ⊢
  by_cases hin : i < n
  · have hnot : o.cover.getLsbD i = false := by simpa [hin] using hzero
    have ha : a.getLsbD i = false := by simpa [hnot] using hcover
    simp [ha]
  · simp [hin]

/-- The operand excludes a value. -/
theorem ne_of_fits (h : o.Fits (a.setWidth 32)) (ho : w ≤ 32 ∧ x < 2 ^ w ∧ x ∈ o.exclusions) :
    (a != BitVec.ofNat w x) = true := by
  obtain ⟨hw, hx, hmem⟩ := ho
  refine bne_iff_ne.mpr ?_
  rintro rfl
  have hadmits := h.2
  rw [Operand.admits, BitVec.toNat_setWidth, BitVec.toNat_ofNat, Nat.mod_eq_of_lt hx,
    Nat.mod_eq_of_lt (hx.trans_le (Nat.pow_le_pow_right (by decide) hw))] at hadmits
  simp [hmem] at hadmits

end

/-- The instructions by what their encodings leave out of an operand's values; those not named leave out none. -/
theorem wellFormed_of_fits {i : Instr} (h : List.Forall₂ Operand.Fits (row i.op).operands i.operands) :
    i.wellFormed = true := by
  cases i with
  | cJ =>
    obtain _ | ⟨ha, -⟩ := h
    exact lowZeros_of_fits ha (by decide)
  | cJr | cJalr =>
    obtain _ | ⟨ha, -⟩ := h
    exact ne_of_fits (x := 0) ha (by decide)
  | cAddi16sp =>
    obtain _ | ⟨ha, -⟩ := h
    exact Bool.and_eq_true_iff.mpr ⟨lowZeros_of_fits ha (by decide), ne_of_fits (x := 0) ha (by decide)⟩
  | lui | auipc | jal | cBeqz | cBnez | cFldsp | cFsdsp | cSwsp | cSdsp =>
    obtain _ | ⟨-, _ | ⟨hb, -⟩⟩ := h
    exact lowZeros_of_fits hb (by decide)
  | cAddi4spn =>
    obtain _ | ⟨-, _ | ⟨hb, -⟩⟩ := h
    exact Bool.and_eq_true_iff.mpr ⟨lowZeros_of_fits hb (by decide), ne_of_fits (x := 0) hb (by decide)⟩
  | cMv | cAdd =>
    obtain _ | ⟨-, _ | ⟨hb, -⟩⟩ := h
    exact ne_of_fits (x := 0) hb (by decide)
  | cAddiw =>
    obtain _ | ⟨ha, -⟩ := h
    exact ne_of_fits (x := 0) ha (by decide)
  | cLwsp | cLdsp =>
    obtain _ | ⟨ha, _ | ⟨hb, -⟩⟩ := h
    exact Bool.and_eq_true_iff.mpr ⟨ne_of_fits (x := 0) ha (by decide), lowZeros_of_fits hb (by decide)⟩
  | cLui =>
    obtain _ | ⟨ha, _ | ⟨hb, -⟩⟩ := h
    exact Bool.and_eq_true_iff.mpr ⟨Bool.and_eq_true_iff.mpr ⟨ne_of_fits (x := 2) ha (by decide),
      lowZeros_of_fits hb (by decide)⟩, ne_of_fits (x := 0) hb (by decide)⟩
  | beq | bne | blt | bge | bltu | bgeu | cFld | cLw | cLd | cFsd | cSw | cSd =>
    obtain _ | ⟨-, _ | ⟨-, _ | ⟨hc, -⟩⟩⟩ := h
    exact lowZeros_of_fits hc (by decide)
  | _ => rfl

/-! ### The fixed bits and the operand values determine a word without a free bit (R182, R183, R186) -/

/-- Two segments produce different bits of the value. -/
abbrev Segment.ValuesApart (a b : Segment) : Prop := a.shift + a.size ≤ b.shift ∨ b.shift + b.size ≤ a.shift

theorem Segment.valuesApart_symm : Std.Symm Segment.ValuesApart := ⟨fun _ _ h => h.symm⟩

/-- No two segments of an operand of a row produce one bit of its value, and all produce bits of 32. -/
theorem values_apart_table : ∀ d ∈ table, ∀ o ∈ d.operands,
    o.segments.Pairwise Segment.ValuesApart ∧ ∀ s ∈ o.segments, s.shift + s.size ≤ 32 := by
  decide +kernel

/-- A segment whose place in the value is its own moves its bits of the word there. -/
theorem getLsbD_decode_inside {o : Operand} {s : Segment} {j : Nat} (hapart : o.segments.Pairwise Segment.ValuesApart)
    (hin : ∀ s ∈ o.segments, s.shift + s.size ≤ 32) (hs : s ∈ o.segments) (hj : (ones s.size <<< s.lo).getLsbD j = true)
    (w : Insn) : (o.decode w).getLsbD (s.shift + (j - s.lo)) = w.getLsbD j := by
  obtain ⟨hj32, hlo, hhi⟩ := (getLsbD_segment s j).mp hj
  have hplace : s.lo + (s.shift + (j - s.lo) - s.shift) = j := by omega
  have hsize : j - s.lo < s.size := by rw [Segment.size]; omega
  have hvalue := hin s hs
  refine Bool.eq_iff_iff.mpr ((getLsbD_decode o w _).trans ⟨?_, fun hw => ?_⟩)
  · rintro ⟨t, ht, ⟨-, hshift, hones⟩, hw⟩
    rw [getLsbD_ones, Bool.and_eq_true, decide_eq_true_eq, decide_eq_true_eq] at hones
    have hts : t = s := by
      by_contra hne
      have := Segment.valuesApart_symm
      have := hapart.forall ht hs hne
      omega
    rwa [hts, hplace] at hw
  · refine ⟨s, hs, ⟨by omega, by omega, ?_⟩, by rwa [hplace]⟩
    rw [getLsbD_ones, Bool.and_eq_true, decide_eq_true_eq, decide_eq_true_eq]
    omega

/-- Words of a row with the same fixed bits and the same operand values agree at every bit that is not free (R182, R183). -/
theorem getLsbD_eq_of_operandValues {op : Op} {w w' : Insn} (hfix : (row op).fixedMatch w = true)
    (hfix' : (row op).fixedMatch w' = true) (hvals : (row op).operandValues w = (row op).operandValues w') {j : Nat}
    (hj : (row op).mask.getLsbD j = true ∨ ∃ o ∈ (row op).operands, o.span.getLsbD j = true) : w.getLsbD j = w'.getLsbD j := by
  rcases hj with hmask | ⟨o, ho, hspan⟩
  · have hw := (fixedMatch_iff _ _).mp hfix j
    have hw' := (fixedMatch_iff _ _).mp hfix' j
    rw [hmask, Bool.and_true] at hw hw'
    rw [hw, hw']
  · obtain ⟨s, hs, hsj⟩ := (getLsbD_span o j).mp hspan
    obtain ⟨hapart, hin⟩ := values_apart_table _ (row_mem_table op) o ho
    rw [← getLsbD_decode_inside hapart hin hs hsj w, ← getLsbD_decode_inside hapart hin hs hsj w',
      List.map_inj_left.mp hvals o ho]

theorem getLsbD_or_span_of_foldl (os : List Operand) {j : Nat} : ∀ m : Insn,
    (os.foldl (fun m o => m ||| o.span) m).getLsbD j = true → m.getLsbD j = true ∨ ∃ o ∈ os, o.span.getLsbD j = true := by
  induction os with
  | nil => exact fun m hm => .inl hm
  | cons o os ih =>
    intro m hm
    rcases ih _ hm with h | ⟨p, hp, h⟩
    · rw [BitVec.getLsbD_or, Bool.or_eq_true] at h
      exact h.imp_right fun h => ⟨o, List.mem_cons_self, h⟩
    · exact .inr ⟨p, List.mem_cons_of_mem o hp, h⟩

/-- Every bit inside the length of a definition without a free bit is fixed or read by an operand. -/
theorem fixed_or_read_of_noBitFree {d : Definition} (h : Machine.NoBitFree d) {j : Nat} (hj32 : j < 32)
    (hj : j < 8 * d.length) : d.mask.getLsbD j = true ∨ ∃ o ∈ d.operands, o.span.getLsbD j = true := by
  refine getLsbD_or_span_of_foldl d.operands d.mask ?_
  rw [h, getLsbD_ones, decide_eq_true hj32, decide_eq_true hj]
  rfl

/-! ### The decoder's answer -/

section
variable {mode : Priv} {len : Nat} {w : Insn} {i : Instr}

theorem matchesWord_iff {d : Definition} : d.matchesWord mode len w = true ↔
    d.length = len ∧ d.fixedMatch w = true ∧ d.allows mode = true ∧ ∀ o ∈ d.operands, o.admits (o.decode w) = true := by
  simp only [Definition.matchesWord, Bool.and_eq_true, beq_iff_eq, List.all_eq_true, and_assoc]

/-- Each operand of a matching definition reads a value that it can have. -/
theorem fits_operandValues {d : Definition} (h : d.matchesWord mode len w = true) :
    List.Forall₂ Operand.Fits d.operands (d.operandValues w) := by
  obtain ⟨-, -, -, hadmits⟩ := matchesWord_iff.mp h
  rw [Definition.operandValues, List.forall₂_map_right_iff, List.forall₂_same]
  refine fun o ho => ⟨BitVec.eq_of_getLsbD_eq fun j hj => ?_, hadmits o ho⟩
  have hcovered := decode_covered o w j
  rw [BitVec.getLsbD_and, BitVec.getLsbD_not]
  cases hbit : (o.decode w).getLsbD j with
  | false => simp
  | true => simp [hcovered hbit]

/-- The row of a decoded instruction matches the word, and reads the instruction's operand values from it. -/
theorem decodeWord_eq_ok (h : decodeWord mode len w = .ok i) :
    (row i.op).matchesWord mode len w = true ∧ i.operands = (row i.op).operandValues w := by
  obtain ⟨d, hd, hmatch, hbuild⟩ := decodeIn_eq_ok h
  obtain ⟨op, rfl⟩ : ∃ op, d = row op := ⟨d.op, row_of_mem_table hd⟩
  rw [row_op, handlerValues_row] at hbuild
  obtain ⟨rfl, hvals⟩ := op_operands_of_ofOperands hbuild (fits_operandValues hmatch)
  exact ⟨hmatch, hvals⟩

theorem wordLength_of_fixedMatch {op : Op} (h : (row op).fixedMatch w = true) : wordLength w = (row op).length := by
  obtain ⟨-, hmask, hlen, -, -⟩ := row_wellFormed op
  have hlow : w &&& 3 = (row op).bits &&& 3 := by
    rw [← beq_iff_eq.mp h, BitVec.and_assoc, hmask]
  rw [wordLength, hlow]
  exact hlen

/-- A word of a row without a free bit is encoded by the instruction it decodes to. -/
theorem encode_of_decodeWord (h : decodeWord mode len w = .ok i) (hfree : Machine.NoBitFree (row i.op))
    (hhigh : w >>> (8 * i.length) = 0) : encode i = w := by
  obtain ⟨hmatch, hvals⟩ := decodeWord_eq_ok h
  have hfits := hvals ▸ fits_operandValues hmatch
  obtain ⟨-, hfix, -, -⟩ := matchesWord_iff.mp hmatch
  have hback := operandValues_encode (representable_of_wellFormed (wellFormed_of_fits hfits))
  refine BitVec.eq_of_getLsbD_eq fun j hj => ?_
  by_cases hin : j < 8 * i.length
  · exact getLsbD_eq_of_operandValues (fixedMatch_encode i) hfix (hback.trans hvals) (fixed_or_read_of_noBitFree hfree hj hin)
  · have hbit := congrArg (BitVec.getLsbD · (j - 8 * i.length)) hhigh
    rw [BitVec.getLsbD_ushiftRight, Nat.add_sub_cancel' (Nat.not_lt.mp hin)] at hbit
    rw [getLsbD_encode_of_length_le (Nat.not_lt.mp hin), hbit]
    exact BitVec.getLsbD_zero.symm

end

/-- Settles O3: the matching row's operands only read values they can have, and without a free bit the fixed bits and the
operand values are the whole word. -/
theorem decodedIsWellFormed : Obligations.DecodedIsWellFormed := by
  refine ⟨fun mode len w i h => ?_, fun mode len w i h hfree hhigh => ?_⟩
  · obtain ⟨hmatch, hvals⟩ := decodeWord_eq_ok h
    have hwf := wellFormed_of_fits (hvals ▸ fits_operandValues hmatch)
    obtain ⟨hlen, hfix, hmode, -⟩ := matchesWord_iff.mp hmatch
    exact ⟨hwf, hmode, hlen, hlen.symm.trans (wordLength_of_fixedMatch hfix).symm, beq_iff_eq.mp hfix⟩
  · obtain ⟨hmatch, -⟩ := decodeWord_eq_ok h
    obtain ⟨rfl, -⟩ := matchesWord_iff.mp hmatch
    exact encode_of_decodeWord h hfree hhigh

end Sys2Proof
end

section
/-! An operand reads back what is written into it (R186), and which words have no definition (R185, R194, R196, R199, R202). -/

namespace Sys2Proof

/-! ### Operands of any definition (R183, R186) -/

/-- The segments of a well-formed definition's operands lie inside the word. -/
theorem segment_lt_of_wellFormed {d : Definition} {o : Operand} (h : d.wellFormed = true) (ho : o ∈ d.operands) :
    ∀ s ∈ o.segments, s.hi < 32 := by
  intro s hs
  simp only [Definition.wellFormed, Bool.and_eq_true, Bool.or_eq_true, beq_iff_eq, List.all_eq_true, decide_eq_true_eq] at h
  obtain ⟨⟨⟨⟨⟨⟨hlen, -⟩, -⟩, -⟩, -⟩, hsegments⟩, -⟩ := h
  obtain ⟨⟨-, hhi⟩, -⟩ := hsegments o ho s hs
  omega

/-- Writing an operand leaves the word alone outside its span. -/
theorem encode_and_not_span (o : Operand) (v w : Insn) : o.encode v w &&& ~~~o.span = w &&& ~~~o.span := by
  refine BitVec.eq_of_getLsbD_eq fun j _ => ?_
  rw [BitVec.getLsbD_and, BitVec.getLsbD_and, BitVec.getLsbD_not]
  cases hspan : o.span.getLsbD j with
  | true => simp
  | false => rw [getLsbD_encode_outside hspan]

/-- Settles O2: the definition's segments lie inside the word, and the table's lie apart. -/
theorem operandRoundTrip : Obligations.OperandRoundTrip := by
  refine ⟨fun d o hwf ho hapart value word hvalue => ?_, fun op o ho => ?_⟩
  · exact ⟨decode_encode hapart (segment_lt_of_wellFormed hwf ho) hvalue word, encode_and_not_span o value word⟩
  · have hall := segments_apart_table _ (row_mem_table op)
    exact ⟨(mem_accepts accepts_default (row_mem_table op)).1, (List.pairwise_flatMap.mp hall).1 o ho⟩

/-! ### Words without a definition (R185, R194, R196, R202) -/

/-- A word that no definition of a table matches decodes to nothing in it. -/
theorem decodeIn_noDefinition {t : List Definition} {mode : Priv} {len : Nat} {w : Insn}
    (h : ∀ d ∈ t, d.matchesWord mode len w = false) : decodeIn t mode len w = .error .noDefinition := by
  have hfilter : (t.filter fun d => d.matchesWord mode len w) = [] := List.filter_eq_nil_iff.mpr (by simpa using h)
  rw [decodeIn, Registry.get, hfilter]

/-- A word without a definition raises IllegalInstruction. -/
theorem runWord_noDefinition {s : Machine.State} {len : Nat} {w : Insn}
    (h : decodeIn s.cfg.isaTable s.hart.priv len w = .error .noDefinition) : Machine.runWord w len s = Machine.illegal s := by
  simp only [Machine.runWord, h]

/-- Settles O4: the registry's check finds every pair of definitions that match one word, and a table with such a pair is
refused; a word that none matches is illegal. -/
theorem decodingIsUnique : Obligations.DecodingIsUnique := by
  refine ⟨((Machine.accepts_iff_matches table).mp accepts_default).2, fun cfg image mode len w h => ?_, fun s len w h => ?_⟩
  · refine Machine.loadMachine_ambiguous (fun hacc => ?_) image
    exact Nat.not_le.mpr h (((Machine.accepts_iff_matches _).mp hacc).2 mode len w)
  · exact runWord_noDefinition (decodeIn_noDefinition h)

/-- The definition without operands that matches the words of a length with some fixed bits, in every mode: a row matches none
of them exactly if it does not overlap it. -/
def fixedBits (len : Nat) (mask bits : Insn) : Definition := ⟨.ecall, len, mask, bits, 0, []⟩

theorem matchesWord_fixedBits {len : Nat} {mask bits w : Insn} (h : w &&& mask = bits) (mode : Priv) :
    (fixedBits len mask bits).matchesWord mode len w = true :=
  matchesWord_iff.mpr ⟨rfl, beq_iff_eq.mpr h, rfl, fun _ ho => absurd ho List.not_mem_nil⟩

/-- The opcodes without a definition (R194). -/
def unassignedOpcodes : List Insn := [0x0B, 0x1F, 0x2B, 0x3F, 0x5B, 0x5F, 0x77, 0x7B, 0x7F]

/-- The masks and bits of the reserved compressed encodings (R196). -/
def reservedParcels : List (Insn × Insn) :=
  [(0xFFFFFFE3, 0), (0xFFFFEF83, 0x2001), (0xFFFFF07F, 0x6001), (0xFFFFEF83, 0x4002), (0xFFFFEF83, 0x6002),
    (0xFFFFFFFF, 0x8002), (0xFFFFE003, 0x8000), (0xFFFFFC63, 0x9C41), (0xFFFFFC63, 0x9C61)]

/-- The fixed bits are inside their mask, and no row of the default table overlaps them. -/
def reserved (len : Nat) (mask bits : Insn) : Bool :=
  bits &&& ~~~mask == 0 && table.all fun d => !d.overlaps (fixedBits len mask bits)

theorem reserved_unassignedOpcodes : (unassignedOpcodes.all fun bits => reserved 4 0x7F bits) = true := by decide +kernel

theorem reserved_reservedParcels : (reservedParcels.all fun p => reserved 2 p.1 p.2) = true := by decide +kernel

theorem decodeWord_of_reserved {len : Nat} {mask bits w : Insn} (hr : reserved len mask bits = true) (h : w &&& mask = bits)
    (mode : Priv) : decodeWord mode len w = .error .noDefinition := by
  rw [reserved, Bool.and_eq_true, beq_iff_eq] at hr
  obtain ⟨hbits, hapart⟩ := hr
  refine decodeIn_noDefinition fun d hd => Bool.eq_false_iff.mpr fun hmatch => ?_
  obtain ⟨-, -, -, hinside, -⟩ := row_wellFormed d.op
  rw [← row_of_mem_table hd] at hinside
  have hoverlap := (overlaps_iff hinside hbits).mpr ⟨mode, len, w, hmatch, matchesWord_fixedBits h mode⟩
  have hnot := List.all_eq_true.mp hapart d hd
  rw [hoverlap] at hnot
  cases hnot

/-- Settles O5: no row overlaps the fixed bits of an unassigned opcode or of a reserved compressed encoding. -/
theorem reservedWordsHaveNoDefinition : Obligations.ReservedWordsHaveNoDefinition := by
  refine ⟨fun mode w h => ?_, fun mode w h => ?_, fun s len w h => runWord_noDefinition h⟩
  · have hmem : w &&& 0x7F ∈ unassignedOpcodes := by simpa [unassignedOpcodes] using h
    exact decodeWord_of_reserved (List.all_eq_true.mp reserved_unassignedOpcodes _ hmem) rfl mode
  · have hmem : ∃ p ∈ reservedParcels, w &&& p.1 = p.2 := by
      simpa [reservedParcels, show w &&& 0xFFFFFFFF#32 = w from BitVec.and_allOnes] using h
    obtain ⟨p, hp, hw⟩ := hmem
    exact decodeWord_of_reserved (List.all_eq_true.mp reserved_reservedParcels p hp) hw mode

/-! ### Restrictions (R184, R199) -/

theorem restriction_table : ∀ d ∈ table, d.restriction = if d.op = .mret then 3 else 0 := by decide +kernel

/-- Below M-mode `mret` has no definition. -/
theorem decodeWord_mret {mode : Priv} (h : mode ≠ .machine) : decodeWord mode 4 0x30200073 = .error .noDefinition := by
  cases mode with
  | user | supervisor => decide
  | machine => exact absurd rfl h

/-- Settles O6: the restriction is read off the table; `sret` and `sfence.vma` check the mode themselves. -/
theorem onlyMretIsRestricted : Obligations.OnlyMretIsRestricted := by
  refine ⟨fun op => ?_, (decodeEncodeRoundTrip .mret .machine rfl rfl).1, decodeWord_mret (by decide),
    decodeWord_mret (by decide), fun s ht hm => ?_, fun s hu => ⟨if_pos hu, fun rs1 rs2 => if_pos hu⟩⟩
  · simpa only [row_op] using restriction_table _ (row_mem_table op)
  · exact runWord_noDefinition (by rw [ht]; exact decodeWord_mret hm)

end Sys2Proof
end

section
/-! The step of a hart (R201 to R205, R672). -/

namespace Sys2Proof.Machine

/-- Settles O9: the environment and the interrupt check come first, then the fetched word runs. -/
theorem stepRunsTheDecodedInstruction : Obligations.StepRunsTheDecodedInstruction := by
  intro s s1 s2 w len i horder hcheck hawake hfetch hdecode
  refine ⟨.ofBytes len, bytes_ofBytes (fetch_length hfetch), ?_⟩
  rw [step_little horder, runHart_awake hcheck hawake, runInstruction, hfetch, run_ok]
  exact runWord_ok hdecode

section
variable {s s1 : State} {c : Interrupt}

/-- With interrupts disabled the interrupt check does nothing. -/
theorem interruptCheck_disabled (h : globalEnable s.cfg s.hart = false) : interruptCheck s = (none, s) := by
  unfold interruptCheck
  split
  · rfl
  · rw [h]; rfl

/-- An enabled pending interrupt wakes the hart, and is taken if its target is at least the current privilege (R638, R672). -/
theorem interruptCheck_enabled (hp : lowestPending (pendingBits s.hart) = some c) (he : globalEnable s.cfg s.hart = true) :
    interruptCheck s = (if (trapTarget (.interrupt c) s.hart).code ≥ s.hart.priv.code then some c else none,
      s.withSleeping false) := by
  simp only [interruptCheck, hp, he, if_true]
  split <;> rfl

/-- A sleeping hart with no interrupt to take does nothing more (R205). -/
theorem runHart_asleep (h : interruptCheck s = (none, s1)) (hs : s1.hart.sleeping = true) : runHart s = .next s1 := by
  simp [runHart, h, hs]

theorem runHart_interrupt (h : interruptCheck s = (some c, s1)) :
    runHart s = takeTrap (.interrupt c) 0 s1.hart.pc s1 := by
  simp only [runHart, h]

end

/-- Settles O11: the interrupt check leaves the hart asleep, or clears the flag and either takes the interrupt or goes on. -/
theorem sleepingHartOnlyChecksInterrupts : Obligations.SleepingHartOnlyChecksInterrupts := by
  intro s hsleep
  refine ⟨fun h => ?_, fun c hp he => ⟨fun hge => ?_, fun hlt => ?_⟩⟩
  · exact runHart_asleep (h.elim interruptCheck_none interruptCheck_disabled) hsleep
  · exact runHart_interrupt ((interruptCheck_enabled hp he).trans (by rw [if_pos hge]))
  · exact runHart_awake ((interruptCheck_enabled hp he).trans (by rw [if_neg (Nat.not_le.mpr hlt)])) rfl

end Sys2Proof.Machine
end

section
/-! The integer instructions (R260 to R290, R429): what each operation of the two operands computes, in arithmetic. -/

namespace Sys2Proof.Machine

/-! ### Shifts are multiplications and divisions by a power of two -/

theorem shiftLeft_eq_ofNat {w : Nat} (x : BitVec w) (n : Nat) : x <<< n = BitVec.ofNat w (x.toNat * 2 ^ n) :=
  congrArg (BitVec.ofNat w) (Nat.shiftLeft_eq x.toNat n)

theorem ushiftRight_eq_ofNat {w : Nat} (x : BitVec w) (n : Nat) : x >>> n = BitVec.ofNat w (x.toNat / 2 ^ n) := by
  rw [← Nat.shiftRight_eq_div_pow, ← BitVec.toNat_ushiftRight, BitVec.ofNat_toNat, BitVec.setWidth_eq]

theorem sshiftRight_eq_ofInt {w : Nat} (x : BitVec w) (n : Nat) :
    x.sshiftRight n = BitVec.ofInt w (x.toInt / 2 ^ n) := by
  rw [BitVec.sshiftRight_eq, Int.shiftRight_eq_div_pow, Nat.cast_pow, Nat.cast_ofNat]

/-- An immediate shift amount is the amount shifted by, at 64 bits. -/
theorem shamt6_zext (sh : BitVec 6) : shamt6 (zext sh) = sh.toNat := by
  rw [shamt6, zext, BitVec.toNat_setWidth_of_le (by decide), Nat.mod_eq_of_lt sh.isLt]

/-- An immediate shift amount is the amount shifted by, in a word form. -/
theorem shamt5_zext (sh : BitVec 5) : shamt5 (zext sh) = sh.toNat := by
  rw [shamt5, zext, BitVec.toNat_setWidth_of_le (by decide), Nat.mod_eq_of_lt sh.isLt]

/-! ### The operations -/

section
variable (a b : Word)

theorem aluSlt_eq : aluSlt a b = if a.toInt < b.toInt then 1 else 0 := by simp [aluSlt, ofFlag]

theorem aluSltu_eq : aluSltu a b = if a.toNat < b.toNat then 1 else 0 := by simp [aluSltu, ofFlag]

theorem aluSll_eq : aluSll a b = BitVec.ofNat 64 (a.toNat * 2 ^ shamt6 b) := shiftLeft_eq_ofNat a _

theorem aluSrl_eq : aluSrl a b = BitVec.ofNat 64 (a.toNat / 2 ^ shamt6 b) := ushiftRight_eq_ofNat a _

theorem aluSra_eq : aluSra a b = BitVec.ofInt 64 (a.toInt / 2 ^ shamt6 b) := sshiftRight_eq_ofInt a _

/-- The low 32 bits of a sum depend on the low 32 bits only (R282, R286). -/
theorem aluAddw_eq : aluAddw a b = (a.setWidth 32 + b.setWidth 32).signExtend 64 :=
  congrArg sext (BitVec.setWidth_add a b (by decide))

/-- The low 32 bits of a difference depend on the low 32 bits only (R287). -/
theorem aluSubw_eq : aluSubw a b = (a.setWidth 32 - b.setWidth 32).signExtend 64 := by
  rw [aluSubw, low32, BitVec.sub_eq_add_neg, BitVec.setWidth_add _ _ (by decide), BitVec.setWidth_neg_of_le (by decide),
    ← BitVec.sub_eq_add_neg, sext]

theorem aluSllw_eq : aluSllw a b = (BitVec.ofNat 32 (a.toNat * 2 ^ shamt5 b)).signExtend 64 := by
  rw [aluSllw, low32, shiftLeft_eq_ofNat, BitVec.setWidth_ofNat_of_le (by decide), sext]

theorem aluSrlw_eq : aluSrlw a b = (BitVec.ofNat 32 ((a.setWidth 32).toNat / 2 ^ shamt5 b)).signExtend 64 :=
  congrArg sext (ushiftRight_eq_ofNat (a.setWidth 32) _)

theorem aluSraw_eq : aluSraw a b = (BitVec.ofInt 32 ((a.setWidth 32).toInt / 2 ^ shamt5 b)).signExtend 64 :=
  congrArg sext (sshiftRight_eq_ofInt (a.setWidth 32) _)

end

/-- The low 32 bits of an immediate sign-extended to 64 bits are its sign extension to 32. -/
theorem low32_sext (imm : BitVec 12) : low32 (sext imm) = imm.signExtend 32 := by
  refine BitVec.eq_of_getLsbD_eq fun j hj => ?_
  simp only [low32, sext, BitVec.getLsbD_setWidth, BitVec.getLsbD_signExtend, hj, show j < 64 by omega, decide_true,
    Bool.true_and]

/-! ### The semihosting toggle (R269, R429) -/

/-- Any other `slli` leaves the semihosting flag alone. -/
theorem toggleSemihosting_of_not {rd rs1 : BitVec 5} {shamt : BitVec 6} (h : ¬(rd = 0 ∧ rs1 = 0 ∧ shamt = 0x1F))
    (s : State) : toggleSemihosting rd rs1 shamt s = s := by
  refine if_neg fun ht => h ?_
  simpa [isSemihostingToggle, and_assoc] using ht

/-- Settles O19: the toggle word writes nothing to x0 and toggles the flag; any other shift word is only a register write. -/
theorem semihostingToggle : Obligations.SemihostingToggle := by
  intro s
  refine ⟨rfl, fun rd rs1 shamt h => ?_, fun rd shamt => ?_⟩
  · have hexec : exec (.slli rd rs1 shamt) s = immOp 4 aluSll rd rs1 (zext shamt) s :=
      congrArg (immOp 4 aluSll rd rs1 (zext shamt)) (toggleSemihosting_of_not h s)
    exact WritesX_of_setX hexec (by rw [aluSll_eq, shamt6_zext])
  · exact WritesX_of_setX rfl (by rw [aluSll_eq, shamt6_zext])

/-- Settles O39: each instruction writes its operation of the register and the extended immediate. -/
theorem integerImmediates : Obligations.IntegerImmediates := by
  refine ⟨fun s rd rs1 imm upper => ⟨?lui, ?auipc, ?addi, ?slti, ?sltiu, ?xori, ?ori, ?andi⟩,
    fun s rd rs1 sh shw => ⟨?srli, ?srai, ?slliw, ?srliw, ?sraiw⟩⟩
  case lui | auipc | addi | xori | ori | andi => exact WritesX_of_setX rfl rfl
  case slti => exact WritesX_of_setX rfl (by rw [aluSlt_eq, sext, BitVec.toInt_signExtend_of_le (by decide)])
  case sltiu => exact WritesX_of_setX rfl (aluSltu_eq _ _)
  case srli => exact WritesX_of_setX rfl (by rw [aluSrl_eq, shamt6_zext])
  case srai => exact WritesX_of_setX rfl (by rw [aluSra_eq, shamt6_zext])
  case slliw => exact WritesX_of_setX rfl (by rw [aluSllw_eq, shamt5_zext])
  case srliw => exact WritesX_of_setX rfl (by rw [aluSrlw_eq, shamt5_zext])
  case sraiw => exact WritesX_of_setX rfl (by rw [aluSraw_eq, shamt5_zext])

/-- Settles O40: each instruction writes its operation of the two registers. -/
theorem registerOperations : Obligations.RegisterOperations := by
  refine ⟨fun s rd rs1 rs2 => ⟨?add, ?sub, ?sll, ?slt, ?sltu, ?xor, ?srl, ?sra, ?or, ?and⟩,
    fun s rd rs1 rs2 imm => ⟨?addiw, ?addw, ?subw, ?sllw, ?srlw, ?sraw⟩⟩
  case add | sub | xor | or | and => exact WritesX_of_setX rfl rfl
  case sll => exact WritesX_of_setX rfl (aluSll_eq _ _)
  case slt => exact WritesX_of_setX rfl (aluSlt_eq _ _)
  case sltu => exact WritesX_of_setX rfl (aluSltu_eq _ _)
  case srl => exact WritesX_of_setX rfl (aluSrl_eq _ _)
  case sra => exact WritesX_of_setX rfl (aluSra_eq _ _)
  case addiw => exact WritesX_of_setX rfl (by rw [aluAddw_eq, ← low32_sext, low32])
  case addw => exact WritesX_of_setX rfl (aluAddw_eq _ _)
  case subw => exact WritesX_of_setX rfl (aluSubw_eq _ _)
  case sllw => exact WritesX_of_setX rfl (aluSllw_eq _ _)
  case srlw => exact WritesX_of_setX rfl (aluSrlw_eq _ _)
  case sraw => exact WritesX_of_setX rfl (aluSraw_eq _ _)

end Sys2Proof.Machine
end

section
/-! Words of the spec and the decoder (R182, R187). -/

namespace Sys2Proof

/-- A word whose bytes begin with those of a well-formed instruction decodes to it. -/
theorem decodeTableWord_of_bytes {i : Instr} {nbits w : Nat} (hwf : i.wellFormed = true)
    (hmode : (row i.op).allows .machine = true) (rest : List Byte)
    (hbytes : wordBytes 4 (BitVec.ofNat 32 (w % 2 ^ nbits)) = encodeBytes i ++ rest) : decodeTableWord nbits w = some i := by
  rw [decodeTableWord, hbytes, (decodeEncodeRoundTrip i .machine hwf hmode).2 rest]

/-- Settles O7: each word is the encoding of its instruction, the 16-bit one with two zero bytes after it. -/
theorem decodedSpecWords : Obligations.DecodedSpecWords := by
  refine ⟨?add, ?jal, ?ld, ?mul, ?amoaddW, ?csrrw, ?sret, ?cSub, ?flw, ?hlvB⟩
  case add | jal | ld | mul | amoaddW | csrrw | sret | flw | hlvB => exact decodeTableWord_of_bytes rfl rfl [] (by decide)
  case cSub => exact decodeTableWord_of_bytes rfl rfl [0, 0] (by decide)

end Sys2Proof
end

section
/-! The control transfer instructions (R320 to R328) and their compressed forms (R462 to R464, R469, R472). -/

namespace Sys2Proof.Machine

/-- `link` to x0 writes no register: it only goes to the target. -/
theorem GoesTo_of_link_zero {i : Instr} {len : Nat} {target : Word} {s : State} (h : exec i s = link len 0 target s) :
    GoesTo i target s := GoesTo_of_withPc h

/-- Not less is at least, signed (R326). -/
theorem not_ltSigned (a b : Word) : (!ltSigned a b) = decide (a.toInt ≥ b.toInt) := by
  rw [ltSigned, ← decide_not, decide_eq_decide, Int.not_lt]

/-- Not less is at least, unsigned (R328). -/
theorem not_ltUnsigned (a b : Word) : (!ltUnsigned a b) = decide (a.toNat ≥ b.toNat) := by
  rw [ltUnsigned, ← decide_not, decide_eq_decide, Nat.not_lt]

/-- Settles O43: a jump is `link`, one without a link register being `link` to x0; a branch is `branch` on its comparison. -/
theorem jumpsAndBranches : Obligations.JumpsAndBranches := by
  refine ⟨fun s rd rs1 offset imm => ⟨?jal, ?jalr⟩, fun s rs1 rs2 offset => ⟨?beq, ?bne, ?blt, ?bge, ?bltu, ?bgeu⟩,
    fun s rs1 p offset jump => ⟨?cJ, ?cBeqz, ?cBnez, ?cJr, ?cJalr⟩⟩
  case jal | jalr | cJalr => exact JumpsTo_of_link rfl
  case cJ | cJr => exact GoesTo_of_link_zero rfl
  case beq | cBeqz => exact GoesTo_of_branch rfl (beq_eq_decide ..)
  case bne | cBnez => exact GoesTo_of_branch rfl decide_not.symm
  case blt | bltu => exact GoesTo_of_branch rfl rfl
  case bge => exact GoesTo_of_branch rfl (not_ltSigned _ _)
  case bgeu => exact GoesTo_of_branch rfl (not_ltUnsigned _ _)

end Sys2Proof.Machine
end

section
/-! The loads and stores of the GPRs where memory answers untranslated, aligned or not (R340 to R351). -/

namespace Sys2Proof.Machine

/-- A load that extends by zeros writes the bytes themselves where memory answers. -/
theorem WritesX_of_zextLoad {i : Instr} {len n : Nat} {rd : BitVec 5} {ea : Word} {s : State}
    (h : exec i s = load len n (zextBytes n) rd ea s) (ha : Answered s ea n) :
    WritesX i len rd (Memory.readLE s.mem ea.toNat n) s :=
  WritesX_of_load h ha (zextBytes_readLE s.mem ea.toNat n)

/-- Settles O44: each instruction is `load` at its own width, and the unsigned forms extend bytes that already fit. -/
theorem loads : Obligations.Loads := by
  intro s rd rs1 imm
  refine ⟨fun ha => ⟨?lb, ?lbu⟩, fun ha => ⟨?lh, ?lhu⟩, fun ha => ⟨?lw, ?lwu⟩, fun ha => ?ld⟩
  case lb | lh | lw | ld => exact WritesX_of_load rfl ha rfl
  case lbu | lhu | lwu => exact WritesX_of_zextLoad rfl ha

/-- Settles O45: each instruction is `store` at its own width. -/
theorem stores : Obligations.Stores := by
  intro s rs1 rs2 imm hm
  refine ⟨?sb, ?sh, ?sw, ?sd⟩
  case sb | sh | sw | sd => exact StoresTo_of_store rfl hm

end Sys2Proof.Machine
end

section
/-! The multiply and divide instructions (R360 to R373). -/

namespace Sys2Proof.Machine

/-! ### Products -/

/-- Bits 127:64 are the floor of the product over 2^64, narrowed: the division commutes with the wrap at 128 bits. -/
theorem highHalf_eq (p : Int) : highHalf p = BitVec.ofInt 64 (p / 2 ^ 64) := by
  apply BitVec.eq_of_toNat_eq
  rw [highHalf, BitVec.extractLsb'_toNat, BitVec.toNat_ofInt, BitVec.toNat_ofInt, Nat.shiftRight_eq_div_pow]
  omega

section
variable (a b : Word)

/-- The low half is the same for signed and unsigned operands (R361). -/
theorem mulLow_eq : mulLow a b = BitVec.ofInt 64 (a.toInt * b.toInt) := by
  rw [BitVec.ofInt_mul, BitVec.ofInt_toInt, BitVec.ofInt_toInt, mulLow]

theorem mulHighU_eq : mulHighU a b = BitVec.ofNat 64 (a.toNat * b.toNat / 2 ^ 64) := by
  rw [mulHighU, highHalf_eq, ← BitVec.ofInt_natCast]
  push_cast
  rfl

/-- The low 32 bits of a product depend on the low 32 bits only (R369). -/
theorem mulWord_eq : mulWord a b = (a.setWidth 32 * b.setWidth 32).signExtend 64 :=
  congrArg sext (BitVec.setWidth_mul a b (by decide))

end

/-- Settles O41: each instruction writes its operation of the two registers, a high half being a quotient by 2^64. -/
theorem products : Obligations.Products := by
  intro s rd rs1 rs2
  refine ⟨?mul, ?mulh, ?mulhsu, ?mulhu, ?mulw⟩
  case mul => exact WritesX_of_setX rfl (mulLow_eq _ _)
  case mulh | mulhsu => exact WritesX_of_setX rfl (highHalf_eq _)
  case mulhu => exact WritesX_of_setX rfl (mulHighU_eq _ _)
  case mulw => exact WritesX_of_setX rfl (mulWord_eq _ _)

/-! ### Quotients and remainders -/

section
variable {w : Nat} (a b : BitVec w)

/-- On overflow the quotient, which is the dividend, is the least signed number (R360). -/
theorem divSigned_eq : divSigned a b =
    if b = 0 then BitVec.allOnes w
    else if a = BitVec.intMin w ∧ b = BitVec.allOnes w then BitVec.intMin w
    else BitVec.ofInt w (a.toInt.tdiv b.toInt) := by
  by_cases hov : a = BitVec.intMin w ∧ b = BitVec.allOnes w
  · rw [divSigned, if_pos hov, if_pos hov, hov.1]
  · rw [divSigned, if_neg hov, if_neg hov]

/-- Without a corner, what the quotient toward zero leaves is the truncating remainder (R367). -/
theorem remSigned_eq : remSigned a b =
    if b = 0 then a
    else if a = BitVec.intMin w ∧ b = BitVec.allOnes w then 0
    else BitVec.ofInt w (a.toInt.tmod b.toInt) := by
  rw [remSigned, Int.tmod_def]

end

/-- Settles O42: each instruction is its division at 64 bits, or at 32 with every row of the table sign-extended. -/
theorem quotientsAndRemainders : Obligations.QuotientsAndRemainders := by
  refine ⟨fun s rd rs1 rs2 => ⟨?div, ?divu, ?rem, ?remu⟩, fun s rd rs1 rs2 => ⟨?divw, ?divuw, ?remw, ?remuw⟩⟩
  case div => exact WritesX_of_setX rfl (divSigned_eq _ _)
  case rem => exact WritesX_of_setX rfl (remSigned_eq _ _)
  case divu | remu => exact WritesX_of_setX rfl rfl
  case divw => exact WritesX_of_setX rfl (by rw [wordForm, divSigned_eq, apply_ite sext, apply_ite sext]; rfl)
  case remw => exact WritesX_of_setX rfl (by rw [wordForm, remSigned_eq, apply_ite sext, apply_ite sext]; rfl)
  case divuw => exact WritesX_of_setX rfl (by rw [wordForm, divUnsigned, apply_ite sext]; rfl)
  case remuw => exact WritesX_of_setX rfl (by rw [wordForm, remUnsigned, apply_ite sext]; rfl)

end Sys2Proof.Machine
end

section
/-! The AMOs where memory answers untranslated (R380, R383 to R391, R394 to R402). -/

namespace Sys2Proof.Machine

/-- An AMO on doublewords exchanges the values themselves. -/
theorem Exchanges_of_amoDouble {i : Instr} {op : Word → Word → Word} {rd rs1 rs2 : BitVec 5} {s : State}
    (h : exec i s = amo 8 op rd rs1 rs2 s) (hm : Memory.wf s.mem = true) (hal : (s.readX rs1).toNat % 8 = 0)
    (ha : Answered s (s.readX rs1) 8) :
    let old := Memory.readLE s.mem (s.readX rs1).toNat 8
    Exchanges i 8 (s.readX rs1) (op old (s.readX rs2)) rd old s := by
  simpa only [sextBytes_eight, zext, BitVec.setWidth_eq] using Exchanges_of_amo h hm hal ha

/-- Settles O47: each instruction is an AMO of its width with its own operation, and on doublewords nothing is extended. -/
theorem atomicOperations : Obligations.AtomicOperations := by
  constructor
  · intro s rd rs1 rs2 aq rl hm hal ha old v does
    have hamo {i : Instr} {op : BitVec 32 → BitVec 32 → BitVec 32} (h : exec i s = amo 4 op rd rs1 rs2 s) :
        does i (op old v) := Exchanges_of_amo h hm hal ha
    exact ⟨hamo (op := amoSwap) rfl, hamo (op := amoAdd) rfl, hamo (op := amoXor) rfl, hamo (op := amoAnd) rfl,
      hamo (op := amoOr) rfl, hamo (op := amoMin) rfl, hamo (op := amoMax) rfl, hamo (op := amoMinu) rfl,
      hamo (op := amoMaxu) rfl⟩
  · intro s rd rs1 rs2 aq rl hm hal ha old v does
    have hamo {i : Instr} {op : Word → Word → Word} (h : exec i s = amo 8 op rd rs1 rs2 s) : does i (op old v) :=
      Exchanges_of_amoDouble h hm hal ha
    exact ⟨hamo (op := amoSwap) rfl, hamo (op := amoAdd) rfl, hamo (op := amoXor) rfl, hamo (op := amoAnd) rfl,
      hamo (op := amoOr) rfl, hamo (op := amoMin) rfl, hamo (op := amoMax) rfl, hamo (op := amoMinu) rfl,
      hamo (op := amoMaxu) rfl⟩

end Sys2Proof.Machine
end

section
/-! The CSR instructions whose checks pass (R410 to R416). -/

namespace Sys2Proof.Machine

/-! ### The index of the next free value does not reach the CSR file -/

/-- The registers that take a free value have no setter, so a write does not depend on the index it would be taken at. -/
theorem csrRowWrite_withDraws_csr (t : CsrRow) (m v : Word) (s : State) (d : Nat) :
    (csrRowWrite t m v (s.withDraws d)).hart.csr = (csrRowWrite t m v s).hart.csr := by
  unfold csrRowWrite
  split
  · rfl
  · next c _ => cases c <;> rfl
  · rfl

theorem csrWrite_withDraws_csr (a : BitVec 12) (v : Word) (s : State) (d : Nat) :
    (csrWrite a v (s.withDraws d)).hart.csr = (csrWrite a v s).hart.csr := by
  unfold csrWrite
  rw [withDraws_cfg]
  split
  · exact csrRowWrite_withDraws_csr _ _ _ _ _
  · rfl

/-! ### A CSR instruction that completes -/

/-- An address that passes the read check has a value, in a table without a cyclic chain. -/
theorem exists_csrValue {s : State} {a : BitVec 12} (hacyclic : csrAcyclic s.cfg.csrTable = true)
    (hr : csrReadable s.cfg.csrTable a s.hart.priv = true) : ∃ old s1, csrValue a s = some (old, s1) := by
  have hdefined : (csrFind s.cfg.csrTable a).isSome = true := (Bool.and_eq_true_iff.mp hr).1
  have hvalue : (csrValue a s).isSome = true := (csrValue_isSome a s).trans (csrTerminal_isSome hacyclic hdefined)
  obtain ⟨⟨old, s1⟩, hv⟩ := Option.isSome_iff_exists.mp hvalue
  exact ⟨old, s1, hv⟩

section
variable {i : Instr} {a : BitVec 12} {rd : BitVec 5} {old : Word} {s s1 : State}

/-- Where only the CSR file and the index differ, writing `rd` and going on completes the instruction. -/
theorem AccessesCsr_of_writeX {f : CsrFile} {d : Nat}
    (h : exec i s = finish 4 (((s.withCsr f).withDraws d).writeX rd old)) : AccessesCsr i rd old f s := by
  refine ⟨_, h, ?_, fun r hr => ?_, ?_, ?_, fun b => ?_, d, ?_⟩
  · rw [readX_retire, readX_writeX_same]
  · rw [readX_retire, readX_writeX_other _ _ hr, readX_withDraws, readX_withCsr]
  · rw [retire_csr, writeX_csr, withDraws_csr, withCsr_csr]
  · rw [retire_pc, writeX_pc, withDraws_pc, withCsr_pc]
    rfl
  · rw [readByte_retire, readByte_writeX, readByte_withDraws, readByte_withCsr]
  · rw [writeX_eq]
    rfl

/-- A write of the CSR file in the state that the read leaves is the write in the state before. -/
theorem AccessesCsr_of_csrWrite {v : Word} {d : Nat}
    (h : exec i s = finish 4 ((csrWrite a v (s.withDraws d)).writeX rd old)) :
    AccessesCsr i rd old (csrWrite a v s).hart.csr s := by
  obtain ⟨f, d', hf⟩ := csrWrite_state a v (s.withDraws d)
  have hcsr : (csrWrite a v s).hart.csr = f := by rw [← csrWrite_withDraws_csr a v s d, hf]; rfl
  rw [hf] at h
  rw [hcsr]
  exact AccessesCsr_of_writeX h

variable (hr : csrReadable s.cfg.csrTable a s.hart.priv = true) (hv : csrValue a s = some (old, s1))
include hr hv

/-- `csrrs`, `csrrc` and their immediate forms always read, and write if their source is not 0 (R412, R413, R415, R416). -/
theorem AccessesCsr_of_modify {src : BitVec 5} {new : Word → Word} (h : exec i s = csrInstr true (src != 0) a rd new s)
    (hw : src ≠ 0 → csrWritable s.cfg.csrTable a = true) :
    AccessesCsr i rd old (if src = 0 then s.hart.csr else (csrWrite a (new old) s).hart.csr) s := by
  rw [csrInstr_reads hr (fun hsrc => hw (bne_iff_ne.mp hsrc)) hv] at h
  obtain ⟨d, rfl⟩ := csrValue_state hv
  by_cases hsrc : src = 0
  · rw [if_pos hsrc]
    rw [if_neg (by simp [hsrc])] at h
    exact AccessesCsr_of_writeX h
  · rw [if_neg hsrc]
    rw [if_pos (bne_iff_ne.mpr hsrc)] at h
    exact AccessesCsr_of_csrWrite h

/-- `csrrw` and `csrrwi` always write; with `rd` = x0 there is no read, and no register to write (R411, R414). -/
theorem AccessesCsr_of_swap {v : Word} (h : exec i s = csrInstr (rd != 0) true a rd (fun _ => v) s)
    (hw : csrWritable s.cfg.csrTable a = true) : AccessesCsr i rd old (csrWrite a v s).hart.csr s := by
  by_cases hrd : rd = 0
  · subst hrd
    exact AccessesCsr_of_csrWrite (d := s.draws) (h.trans (csrInstr_writes hr hw))
  · rw [bne_iff_ne.mpr hrd, csrInstr_reads hr (fun _ => hw) hv] at h
    obtain ⟨d, rfl⟩ := csrValue_state hv
    exact AccessesCsr_of_csrWrite h

end

/-- Settles O22: an address that passes the read check has a value, and each instruction exchanges it or modifies it. -/
theorem csrInstructions : Obligations.CsrInstructions := by
  refine ⟨?registers, ?immediates⟩
  case registers | immediates =>
    intro s a rd src hacyclic hr
    obtain ⟨old, s1, hv⟩ := exists_csrValue hacyclic hr
    refine ⟨old, s1, hv, fun hw => ⟨?swap, ?set, ?clear, ?noRead⟩, ?setNothing, ?clearNothing⟩
    case swap => exact AccessesCsr_of_swap hr hv rfl hw
    case set => exact AccessesCsr_of_modify (new := (· ||| _)) hr hv rfl fun _ => hw
    case clear => exact AccessesCsr_of_modify (new := (· &&& ~~~_)) hr hv rfl fun _ => hw
    case noRead =>
      rintro rfl
      exact csrInstr_writes hr hw
    case setNothing => exact AccessesCsr_of_modify (src := 0) (new := (· ||| _)) hr hv rfl fun h => absurd rfl h
    case clearNothing => exact AccessesCsr_of_modify (src := 0) (new := (· &&& ~~~_)) hr hv rfl fun h => absurd rfl h

end Sys2Proof.Machine
end

section
/-! The system instructions (R421 to R427, R471, R651): the fences and `wfi`, the environment calls and breakpoints, and the
returns from traps. -/

namespace Sys2Proof.Machine

/-! ### The fences and `wfi` (R421, R422, R427) -/

/-- `finish` with no effect before it: only the pc advances. -/
theorem GoesTo_of_finish {i : Instr} {len : Nat} {s : State} (h : exec i s = finish len s) :
    GoesTo i (s.hart.pc + BitVec.ofNat 64 len) s := GoesTo_of_withPc h

/-- Settles O18: a fence is `finish` at once, and `wfi` is `finish` with the WFI flag set. -/
theorem fencesAndWfi : Obligations.FencesAndWfi := by
  intro s
  refine ⟨fun fm pred succ rs1 rd => ?fence, fun imm rs1 rd => ?fenceI, ?wfi⟩
  case fence | fenceI => exact GoesTo_of_finish rfl
  case wfi => rfl

/-! ### Environment calls and breakpoints (R423, R424, R471) -/

theorem ecallExc_code (p : Priv) : (ecallExc p).code = 8 + p.code := by cases p <;> rfl

theorem breakpoint_semihosting {s : State} (h : s.hart.semihosting = true) : breakpoint s = .refused .semihostingCall :=
  if_pos h

/-- A breakpoint instruction of either length raises Breakpoint while semihosting is off. -/
theorem Raises_of_breakpoint {i : Instr} {s : State} (h : exec i s = breakpoint s) (hoff : s.hart.semihosting = false)
    (hi : HandlerInstalled 3 s.hart) : Raises i 3 s.hart.pc s :=
  Raises_of_raiseExc (e := .breakpoint) (h.trans (if_neg (Bool.eq_false_iff.mp hoff))) hi

/-- Settles O17: `ecall` raises the exception whose code its mode gives, and both breakpoint instructions are `breakpoint`. -/
theorem ecallAndEbreak : Obligations.EcallAndEbreak := by
  refine ⟨fun s hi => ?ecall, fun s => ⟨fun hon => ?semihosting, fun hoff hi => ?breakpoint⟩⟩
  case ecall =>
    rw [← ecallExc_code] at hi ⊢
    exact Raises_of_raiseExc rfl hi
  case semihosting => exact ⟨breakpoint_semihosting hon, breakpoint_semihosting hon⟩
  case breakpoint => exact ⟨Raises_of_breakpoint rfl hoff hi, Raises_of_breakpoint rfl hoff hi⟩

/-! ### Returns from traps (R425, R426, R651) -/

/-- A field reads as the value it was replaced by. -/
theorem field_setField (v x : Word) {lo n : Nat} (hn : lo + n ≤ 64) : field (setField v lo n x) lo n = field x 0 n := by
  refine bit_ext fun i => ?_
  rw [bit_field _ _ _ _ (by omega), bit_field _ _ _ _ (by omega), bit_setField _ _ _ _ _ hn]
  by_cases hi : i < n
  · rw [if_pos (by omega), Nat.add_sub_cancel_left, Nat.zero_add]
  · simp [hi]

theorem statusMPP_mret (v : Word) : statusMPP (statusMret v) = 0 := by
  rw [statusMPP, statusMret, field_setField _ _ (by decide)]
  rfl

theorem bit_statusMret (v : Word) {i : Nat} (h11 : i ≠ 11) (h12 : i ≠ 12) :
    bit (statusMret v) i = if i = 7 then true else if i = 3 then statusMPIE v else bit v i := by
  rw [statusMret, bit_setField _ _ _ _ _ (by decide), if_neg (by omega), bit_setBit _ _ _ _ (by decide),
    bit_setBit _ _ _ _ (by decide)]

theorem bit_statusSret (v : Word) (i : Nat) : bit (statusSret v) i =
    if i = 8 then false else if i = 5 then true else if i = 1 then statusSPIE v else bit v i := by
  rw [statusSret, bit_setBit _ _ _ _ (by decide), bit_setBit _ _ _ _ (by decide), bit_setBit _ _ _ _ (by decide)]

theorem statusMPP_lt (v : Word) : statusMPP v < 4 := by
  rw [statusMPP, field, BitVec.toNat_and]
  exact Nat.and_lt_two_pow (n := 2) _ (by decide)

/-- Every two-bit value but 2 is the encoding of a mode (R42). -/
theorem exists_ofCode {n : Nat} (hlt : n < 4) (hne : n ≠ 2) : ∃ p, Priv.ofCode n = some p ∧ p.code = n := by
  obtain rfl | rfl | rfl : n = 0 ∨ n = 1 ∨ n = 3 := by omega
  · exact ⟨.user, rfl, rfl⟩
  · exact ⟨.supervisor, rfl, rfl⟩
  · exact ⟨.machine, rfl, rfl⟩

section
variable {s : State}

theorem exec_mret_illegalPrivilege (hpriv : s.hart.priv = .machine) (hmpp : statusMPP s.hart.csr.mstatus = 2) :
    exec .mret s = .fault .illegalPrivilege := by
  show execMret s = _
  rw [execMret, if_neg (not_not.mpr hpriv), hmpp]
  rfl

theorem exec_mret_returns {p : Priv} (hpriv : s.hart.priv = .machine)
    (hmpp : Priv.ofCode (statusMPP s.hart.csr.mstatus) = some p) :
    exec .mret s = .next (returnState p (statusMret s.hart.csr.mstatus) s.hart.csr.mepc s) := by
  show execMret s = _
  rw [execMret, if_neg (not_not.mpr hpriv), hmpp]
  rfl

theorem exec_sret_illegal (hpriv : s.hart.priv = .user) : exec .sret s = illegal s := if_pos hpriv

theorem exec_sret_returns (hpriv : s.hart.priv ≠ .user) : exec .sret s =
    .next (returnState (sretPriv s.hart.csr.mstatus) (statusSret s.hart.csr.mstatus) s.hart.csr.sepc s) := if_neg hpriv

end

/-- Settles O16: each return goes to its `returnState`, and the status there is said bit by bit. -/
theorem returnsFromTraps : Obligations.ReturnsFromTraps := by
  refine ⟨fun s hpriv => ⟨exec_mret_illegalPrivilege hpriv, fun hmpp => ?mret⟩,
    fun s => ⟨exec_sret_illegal, fun hpriv => ?sret⟩⟩
  case mret =>
    obtain ⟨p, hp, hcode⟩ := exists_ofCode (statusMPP_lt _) hmpp
    refine ⟨_, exec_mret_returns hpriv hp, hcode, rfl, bit_statusMret _ (by decide) (by decide),
      bit_statusMret _ (by decide) (by decide), statusMPP_mret _, fun i h3 h7 h11 h12 => ?_, rfl⟩
    exact (bit_statusMret _ h11 h12).trans (by rw [if_neg h7, if_neg h3])
  case sret =>
    refine ⟨_, exec_sret_returns hpriv, rfl, rfl, bit_statusSret _ 1, bit_statusSret _ 5, bit_statusSret _ 8,
      fun i h1 h5 h8 => ?_, rfl⟩
    exact (bit_statusSret _ i).trans (by rw [if_neg h8, if_neg h5, if_neg h1])

end Sys2Proof.Machine
end

section
/-! The privilege (R641, R645, R660, R661): a trap never lowers it, and of the instructions only the two returns do. -/

namespace Sys2Proof.Machine

/-! ### The target of a trap (R641) -/

theorem Priv_code_le_machine (p : Priv) : p.code ≤ Priv.machine.code := by cases p <;> decide

theorem Priv_code_le_supervisor_iff (p : Priv) : p.code ≤ Priv.supervisor.code ↔ p ≠ .machine := by cases p <;> decide

/-- The target of an exception is at least the privilege it comes from: M delegates none of its own (R641, R645). -/
theorem le_trapTarget_exception (e : Exc) (h : Hart) : h.priv.code ≤ (trapTarget (.exception e) h).code := by
  by_cases hd : Delegated e.code h
  · rw [trapTarget_delegated hd, Priv_code_le_supervisor_iff]
    exact hd.1
  · rw [trapTarget_not_delegated hd]
    exact Priv_code_le_machine h.priv

/-- No effect of an instruction lowers the privilege, but for the returns (R661). -/
theorem Effect_priv {i : Instr} {s t : State} (h : Effect i s t) :
    s.hart.priv.code ≤ t.hart.priv.code ∨ i = .mret ∨ i = .sret := by
  cases h with
  | @traps u e tval hu =>
    obtain ⟨-, -, -, hpriv, -⟩ := MmuStep_fields hu
    rw [trapState_priv, ← hpriv]
    exact .inl (le_trapTarget_exception e u.hart)
  | writesX rd v l hu | writesF rd v l hu =>
    obtain ⟨-, -, -, hpriv, -⟩ := MmuStep_fields hu
    simp [hpriv]
  | writesCsr a new d rd old hread hwrite =>
    obtain ⟨f, d', hf⟩ := csrWrite_state a new (s.withDraws d)
    simp [hf]
  | jumps rd v target heven => simp
  | setsSemihosting b rd v => simp
  | sleeps hi => simp
  | returnsS hi hpriv => exact .inr (.inr hi)
  | returnsM hi hpriv hmpp => exact .inr (.inl hi)

/-- Settles O58: every next state of an instruction is one of its effects. -/
theorem onlyReturnsLowerPrivilege : Obligations.OnlyReturnsLowerPrivilege := by
  intro i s t h hlower
  exact (Effect_priv (exec_effect h)).resolve_left (Nat.not_le.mpr hlower)

theorem takeTrap_priv {ev : TrapEvent} {tval epc : Word} {s t : State} (h : takeTrap ev tval epc s = .next t) :
    t.hart.priv = trapTarget ev s.hart := by
  obtain ⟨-, rfl⟩ := takeTrap_eq_next h
  rfl

/-- Settles O15: the privilege after a trap is its target, and an interrupt is taken only if that is no lower. -/
theorem trapTargetNeverLowersPrivilege : Obligations.TrapTargetNeverLowersPrivilege := by
  refine ⟨fun e h => ?_, fun c h => rfl, fun e tval s t h => ?_, fun s s1 t c hc h => ?_, by decide⟩
  · exact if_congr (and_congr_left' (Priv_code_le_supervisor_iff h.priv).symm) rfl rfl
  · rw [takeTrap_priv h]
    exact ⟨rfl, le_trapTarget_exception e s.hart⟩
  · obtain ⟨-, -, hge, rfl⟩ := interruptCheck_taken hc
    rw [takeTrap_priv h]
    exact ⟨rfl, hge⟩

end Sys2Proof.Machine
end

section
/-! Trap entry and the taking of an interrupt (R633, R638 to R647). -/

namespace Sys2Proof.Machine

/-! ### Trap entry (R642 to R647) -/

section
variable {ev : TrapEvent} {s : State} (tval epc : Word)

theorem takeTrap_entersM (ht : trapTarget ev s.hart = .machine) (hbase : s.hart.csr.mtvec &&& ~~~3 ≠ 0) :
    ∃ t, takeTrap ev tval epc s = .next t ∧ EntersM ev.isInterrupt ev.code tval epc s t :=
  ⟨_, takeTrap_enter (by rw [ht]; exact hbase), trapState_entersM tval epc ht⟩

theorem takeTrap_entersS (ht : trapTarget ev s.hart = .supervisor) (hbase : s.hart.csr.stvec &&& ~~~3 ≠ 0) :
    ∃ t, takeTrap ev tval epc s = .next t ∧ EntersS ev.isInterrupt ev.code tval epc s t :=
  ⟨_, takeTrap_enter (by rw [ht]; exact hbase), trapState_entersS tval epc ht⟩

end

/-- Settles O14: the vector of the target decides between the entry and NoTrapHandler. -/
theorem trapEntryState : Obligations.TrapEntryState := by
  refine fun ev tval epc s => ⟨fun ht => ⟨takeTrap_entersM tval epc ht, fun hzero => ?_⟩,
    fun ht => ⟨takeTrap_entersS tval epc ht, fun hzero => ?_⟩⟩
  · exact takeTrap_zero (by rw [ht]; exact hzero)
  · exact takeTrap_zero (by rw [ht]; exact hzero)

/-! ### Interrupts (R638, R639) -/

section
variable {s : State} {c : Interrupt} (hp : lowestPending (pendingBits s.hart) = some c)
  (he : globalEnable s.cfg s.hart = true)
include hp he

/-- An interrupt whose target is at least the current privilege is taken, by a hart that is awake. -/
theorem runHart_takes (hge : s.hart.priv.code ≤ (trapTarget (.interrupt c) s.hart).code) :
    runHart s = takeTrap (.interrupt c) 0 s.hart.pc (s.withSleeping false) :=
  runHart_interrupt ((interruptCheck_enabled hp he).trans (by rw [if_pos hge]))

/-- An interrupt whose target is below the current privilege is not taken: the hart wakes and runs an instruction. -/
theorem runHart_passes (hlt : (trapTarget (.interrupt c) s.hart).code < s.hart.priv.code) :
    runHart s = runInstruction (s.withSleeping false) :=
  runHart_awake ((interruptCheck_enabled hp he).trans (by rw [if_neg (Nat.not_le.mpr hlt)])) rfl

end

theorem trapTarget_interrupt_of_delegated {c : Interrupt} {h : Hart} (hd : bit h.csr.mideleg c.code = true) :
    trapTarget (.interrupt c) h = .supervisor := if_pos hd

theorem trapTarget_interrupt_of_not_delegated {c : Interrupt} {h : Hart} (hd : bit h.csr.mideleg c.code = false) :
    trapTarget (.interrupt c) h = .machine := if_neg (Bool.eq_false_iff.mp hd)

/-- Settles O13: M is never below the current privilege, and S is only if that is M. -/
theorem interruptIsTaken : Obligations.InterruptIsTaken := by
  refine fun s c hp he => ⟨fun hd hbase => ?byM, fun hd hm hbase => ?byS, fun hd hm => ?passes⟩
  case byM =>
    have ht := trapTarget_interrupt_of_not_delegated hd
    rw [runHart_takes hp he (by rw [ht]; exact Priv_code_le_machine _)]
    exact takeTrap_entersM 0 s.hart.pc (s := s.withSleeping false) ht hbase
  case byS =>
    have ht := trapTarget_interrupt_of_delegated hd
    rw [runHart_takes hp he (by rw [ht, Priv_code_le_supervisor_iff]; exact hm)]
    exact takeTrap_entersS 0 s.hart.pc (s := s.withSleeping false) ht hbase
  case passes =>
    have ht := trapTarget_interrupt_of_delegated hd
    exact runHart_passes hp he (by rw [ht, hm]; decide)

end Sys2Proof.Machine
end

section
/-! The compressed computations, loads and stores (R440 to R461, R467 to R476). -/

namespace Sys2Proof.Machine

/-- The low bits of a sign extension are the sign extension to fewer bits. -/
theorem setWidth_signExtend_of_le {w m n : Nat} (h : n ≤ m) (v : BitVec w) :
    (v.signExtend m).setWidth n = v.signExtend n := by
  refine BitVec.eq_of_getLsbD_eq fun j hj => ?_
  simp only [BitVec.getLsbD_setWidth, BitVec.getLsbD_signExtend, hj, hj.trans_le h, decide_true, Bool.true_and]

/-- Adding to x0 copies the other operand (R450, R470). -/
theorem aluAdd_readX_zero (s : State) (v : Word) : aluAdd (s.readX 0) v = v := by
  rw [readX_zero]
  exact BitVec.zero_add v

/-- Settles O49: each instruction is the register write of its expansion, at length 2. -/
theorem compressedComputations : Obligations.CompressedComputations := by
  intro s rd rs2 p q imm uimm nzimm upper x
  refine ⟨?cAddi4spn, ?cAddi, ?cAddiw, ?cLi, ?cAddi16sp, ?cLui, ?cSrli, ?cSrai, ?cAndi, ?cSub, ?cXor, ?cOr, ?cAnd, ?cSubw,
    ?cAddw, ?cMv, ?cAdd⟩
  case cAddi4spn | cAddi | cAddi16sp | cLui | cAndi | cSub | cXor | cOr | cAnd | cAdd => exact WritesX_of_setX rfl rfl
  case cLi | cMv => exact WritesX_of_setX rfl (aluAdd_readX_zero s _)
  case cAddiw => exact WritesX_of_setX rfl (by rw [aluAddw_eq, sext, setWidth_signExtend_of_le (by decide)])
  case cSrli => exact WritesX_of_setX rfl (by rw [aluSrl_eq, shamt6_zext])
  case cSrai => exact WritesX_of_setX rfl (by rw [aluSra_eq, shamt6_zext])
  case cSubw => exact WritesX_of_setX rfl (aluSubw_eq _ _)
  case cAddw => exact WritesX_of_setX rfl (aluAddw_eq _ _)

/-- Settles O50: each instruction is `load` or `store` at its own width, at length 2. -/
theorem compressedLoadsAndStores : Obligations.CompressedLoadsAndStores := by
  intro s rd rs2 p q u7 u8 u9 hm at7 at8 sp8 sp9 word double
  exact ⟨fun ha => ⟨WritesX_of_load rfl ha rfl, StoresTo_of_store rfl hm ha⟩,
    fun ha => ⟨WritesX_of_load rfl ha rfl, StoresTo_of_store rfl hm ha⟩,
    fun ha => ⟨WritesX_of_load rfl ha rfl, StoresTo_of_store rfl hm ha⟩,
    fun ha => ⟨WritesX_of_load rfl ha rfl, StoresTo_of_store rfl hm ha⟩⟩

end Sys2Proof.Machine
end

section
/-! The floating-point loads, stores and moves, implemented or stubbed, and the instructions that are always left unsupported
(R442, R445, R466, R474, R490 to R564, R600 to R628). -/

namespace Sys2Proof.Machine

/-! ### Implemented (R491 to R499) -/

/-- A word read from memory is boxed as it is: it has no bits above 31. -/
theorem nanBox_readLE (m : List Host.Cell) (a : Nat) :
    nanBox (Memory.readLE m a 4) = 0xFFFFFFFF00000000 ||| Memory.readLE m a 4 :=
  congrArg (0xFFFFFFFF00000000 ||| ·) (zextBytes_readLE m a 4)

/-- Settles O52: with the gate open each instruction is `loadF` or `store` at its own width and length. -/
theorem fpLoadsAndStores : Obligations.FpLoadsAndStores := by
  intro s rd rs1 rs2 imm p q u8 u9 hfp hm ea at8 sp9 double
  have hopen := fpGate_implemented hfp
  exact ⟨fun ha => ⟨WritesF_of_loadF (hopen _) ha (nanBox_readLE _ _), StoresTo_of_store (hopen _) hm ha⟩,
    fun ha => ⟨WritesF_of_loadF (hopen _) ha rfl, StoresTo_of_store (hopen _) hm ha⟩,
    fun ha => ⟨WritesF_of_loadF (hopen _) ha rfl, StoresTo_of_store (hopen _) hm ha⟩,
    fun ha => ⟨WritesF_of_loadF (hopen _) ha rfl, StoresTo_of_store (hopen _) hm ha⟩⟩

/-! ### Stubbed (R490) -/

/-- An instruction that is `illegal` raises IllegalInstruction, with the draw as the trap value (R202). -/
theorem RaisesIllegal_of_illegal {i : Instr} {s : State} (h : exec i s = illegal s) (hi : HandlerInstalled 2 s.hart) :
    RaisesIllegal i s := by
  obtain ⟨t, ht, htakes⟩ := raiseExc_takesException (e := .illegalInstruction) (s := s.nextDraw) hi s.draw
  exact ⟨s.draw, t, h.trans ht, htakes⟩

theorem fpGate_stub {s : State} (h : s.cfg.fpMemoryOps = .stub) (act : State → Result) : fpGate act s = illegal s := by
  simp only [fpGate, h]

/-- The FP loads, stores and moves are the instructions behind the gate. -/
theorem exec_eq_fpGate {i : Instr} (s : State)
    (h : i.op ∈ [.flw, .fld, .fsw, .fsd, .fmvXW, .fmvWX, .fmvXD, .fmvDX, .cFld, .cFsd, .cFldsp, .cFsdsp]) :
    ∃ act, exec i s = fpGate act s := by
  cases i with
  | flw | fld | fsw | fsd | cFld | cFsd | cFldsp | cFsdsp => exact ⟨_, rfl⟩
  | fmvXW rd rs1 => exact ⟨_, show execFmvXW rd rs1 s = _ from rfl⟩
  | fmvWX rd rs1 => exact ⟨_, show execFmvWX rd rs1 s = _ from rfl⟩
  | fmvXD rd rs1 => exact ⟨_, show execFmvXD rd rs1 s = _ from rfl⟩
  | fmvDX rd rs1 => exact ⟨_, show execFmvDX rd rs1 s = _ from rfl⟩
  | _ => simp [Instr.op] at h

/-- Settles O51: with the gate open the moves are register writes, and with the gate shut every one is `illegal`. -/
theorem fpMovesAndStubs : Obligations.FpMovesAndStubs := by
  refine ⟨fun s rd rs1 hfp => ?implemented, fun s i hfp hi hop => ?stub⟩
  case implemented =>
    have hopen := fpGate_implemented hfp
    exact ⟨WritesX_of_finish (show execFmvXW rd rs1 s = _ from hopen _) rfl,
      WritesF_of_finish (show execFmvWX rd rs1 s = _ from hopen _) rfl,
      WritesX_of_finish (show execFmvXD rd rs1 s = _ from hopen _) rfl,
      WritesF_of_finish (show execFmvDX rd rs1 s = _ from hopen _) rfl⟩
  case stub =>
    obtain ⟨act, hact⟩ := exec_eq_fpGate s hop
    exact RaisesIllegal_of_illegal (hact.trans (fpGate_stub hfp act)) hi

/-! ### Always unsupported (R510 to R564, R600 to R628) -/

/-- The identifiers of the FP arithmetic (R510 to R564) and of the hypervisor, cache-management and vector instructions (R600
to R628). -/
def isUnsupported : Op → Bool
  | .faddS | .fsubS | .fmulS | .fdivS | .fsqrtS | .fsgnjS | .fsgnjnS | .fsgnjxS | .fminS | .fmaxS | .feqS | .fltS | .fleS
  | .fclassS | .fcvtWS | .fcvtWuS | .fcvtLS | .fcvtLuS | .fcvtSW | .fcvtSWu | .fcvtSL | .fcvtSLu | .faddD | .fsubD | .fmulD
  | .fdivD | .fsqrtD | .fsgnjD | .fsgnjnD | .fsgnjxD | .fminD | .fmaxD | .feqD | .fltD | .fleD | .fclassD | .fcvtWD
  | .fcvtWuD | .fcvtLD | .fcvtLuD | .fcvtDW | .fcvtDWu | .fcvtDL | .fcvtDLu | .fcvtSD | .fcvtDS | .fmaddS | .fmsubS
  | .fnmsubS | .fnmaddS | .fmaddD | .fmsubD | .fnmsubD | .fnmaddD => true
  | .hfenceVvma | .hfenceGvma | .hlvB | .hlvBu | .hlvH | .hlvHu | .hlvxHu | .hlvW | .hlvWu | .hlvxWu | .hlvD | .hsvB
  | .hsvH | .hsvW | .hsvD | .cboInval | .cboClean | .cboFlush | .cboZero | .vectorOp | .vectorLoadW8 | .vectorLoadW16
  | .vectorLoadW32 | .vectorLoadW64 | .vectorStoreW8 | .vectorStoreW16 | .vectorStoreW32 | .vectorStoreW64 => true
  | _ => false

/-- Such an instruction is `illegal`, whatever its operands. -/
theorem exec_unsupported {i : Instr} (h : isUnsupported i.op = true) (s : State) : exec i s = illegal s := by
  cases i with
  | faddS | fsubS | fmulS | fdivS | fsqrtS | fsgnjS | fsgnjnS | fsgnjxS | fminS | fmaxS | feqS | fltS | fleS | fclassS
  | fcvtWS | fcvtWuS | fcvtLS | fcvtLuS | fcvtSW | fcvtSWu | fcvtSL | fcvtSLu | faddD | fsubD | fmulD | fdivD | fsqrtD
  | fsgnjD | fsgnjnD | fsgnjxD | fminD | fmaxD | feqD | fltD | fleD | fclassD | fcvtWD | fcvtWuD | fcvtLD | fcvtLuD
  | fcvtDW | fcvtDWu | fcvtDL | fcvtDLu | fcvtSD | fcvtDS | fmaddS | fmsubS | fnmsubS | fnmaddS | fmaddD | fmsubD
  | fnmsubD | fnmaddD => rfl
  | hfenceVvma | hfenceGvma | hlvB | hlvBu | hlvH | hlvHu | hlvxHu | hlvW | hlvWu | hlvxWu | hlvD | hsvB | hsvH | hsvW
  | hsvD | cboInval | cboClean | cboFlush | cboZero | vectorOp | vectorLoadW8 | vectorLoadW16 | vectorLoadW32
  | vectorLoadW64 | vectorStoreW8 | vectorStoreW16 | vectorStoreW32 | vectorStoreW64 => rfl
  | _ => cases h

/-- Settles O53: every identifier of the two lists is one of those. -/
theorem unsupportedInstructionsRaiseIllegal : Obligations.UnsupportedInstructionsRaiseIllegal := by
  refine ⟨fun s i hi hop => RaisesIllegal_of_illegal (exec_unsupported ?float s) hi,
    fun s i hi hop => RaisesIllegal_of_illegal (exec_unsupported ?other s) hi⟩
  case float | other =>
    generalize i.op = op at hop ⊢
    revert op
    decide

end Sys2Proof.Machine
end

section
/-! The invariant at reset (R701, R702). -/

namespace Sys2Proof.Machine

/-- Every hart that reset builds meets the invariant of a hart. -/
theorem resetList_inv {cfg : Config} (hcfg : cfg.wf = true) (htbl : cfg.csrTable = csrTable) (count first : Nat) :
    ∀ h ∈ Hart.resetList cfg count first, h.Inv := by
  rw [resetList_eq]
  exact List.forall_mem_map.mpr fun n _ => Hart_Inv_reset hcfg htbl _

theorem resetWith_inv {cfg : Config} {mem : List Host.Cell} (hcfg : cfg.wf = true)
    (hacc : Registry.accepts cfg.isaTable = true) (htbl : cfg.csrTable = csrTable) (hmem : Memory.wf mem = true) :
    (State.resetWith cfg mem).Inv :=
  ⟨hcfg, hacc, htbl, hmem, Hart_Inv_reset hcfg htbl 0, resetList_inv hcfg htbl _ _⟩

/-- Settles O56: every hart is in its reset state, and the default parameters are acceptable. -/
theorem resetMeetsTheInvariant : Obligations.ResetMeetsTheInvariant :=
  ⟨fun _ _ hcfg hacc htbl hmem => resetWith_inv hcfg hacc htbl hmem,
    resetWith_inv (by decide) accepts_default rfl rfl⟩

end Sys2Proof.Machine
end
